-- ==== Sys2Proof/Word.lean ====
section
/-!
DEFINITION. The word types of CORE: 64-bit registers and command words, 8-bit pixels and descriptor cells,
and the 64-bit encodings of binary64 values (spec 00_scope.md R5, R6, R7).
-/
namespace Sys2Proof

/-- A 64-bit register or command word (00_scope.md R5, "register width"). -/
abbrev Word := BitVec 64

/-- A pixel intensity or a descriptor cell (00_scope.md R5, R7). -/
abbrev Byte := BitVec 8

/-- The encoding of a binary64 value, `bits64` of 00_scope.md R8. -/
abbrev F64 := BitVec 64

/-- An offset from CORE_BASE in CORE's 256 KiB of bus space (20_memory.md R80). -/
abbrev Offset := BitVec 18

end Sys2Proof
end

