-- ==== Sys2Proof/Config.lean ====
section
/-!
DEFINITION. What one implementation of CORE fixes and the spec leaves open (00_scope.md R5, R10; 93_implementation_defined.md
S1 to S5), and the constants the spec does fix. The open values are opaque: no proof can see what they are.
-/
namespace Sys2Proof

/-- One angle of the trig parameter with the sine and cosine of it. -/
structure Config.TrigEntry where
  theta : F64
  sin : F64
  cos : F64
deriving DecidableEq, Repr

/-- Free: this chip's sine before it is held to R10. Log 4. -/
opaque Config.rawSin : F64 → F64

/-- Free: this chip's cosine before it is held to R10. Log 4. -/
opaque Config.rawCos : F64 → F64

/-- Free: chooses CORE_BASE. Log 7. -/
opaque Config.rawBase : Nat

/-- Free (93_implementation_defined.md S1): the byte that buffer IMG (`false`) or DESC (`true`) holds at an offset nothing
has written since reset number `epoch`: `freeResetByte epoch buffer offset`. Log 8. -/
opaque Config.freeResetByte : Nat → Bool → Nat → Byte

/-- Free (93_implementation_defined.md S2): the byte a host read of DESC gives while BUSY = 1:
`freeBusyByte draw offset`, where `draw` numbers the reads. Log 9. -/
opaque Config.freeBusyByte : Nat → Nat → Byte

/-- Free: the payload of the NaN an operation on two operands gives. No command reaches it. Log 10. -/
opaque Config.freeNaN : F64 → F64 → F64

/-- Free: the integer part of a value that is not finite, which 00_scope.md R9 does not define. No command reaches it.
Log 10. -/
opaque Config.freeInteger : F64 → Int

/-- +0.0 -/
def Config.zero64 : F64 := 0#64

/-- 1.0 -/
def Config.one64 : F64 := 0x3FF0000000000000#64

/-- 2.0 -/
def Config.two64 : F64 := 0x4000000000000000#64

/-- `PI64`, the binary64 value nearest π (00_scope.md R8). -/
def Config.pi64 : F64 := 0x400921FB54442D18#64

/-- The constant the ID register reads as (10_state.md R31). -/
def Config.idValue : Word := 0x000000074C425043#64

/-- The alignment and the size of CORE's bus space, 256 KiB (20_memory.md R80, R81). -/
def Config.busSpan : Nat := 0x40000

/-- "their results lie in [−1, +1]" (00_scope.md R10), told from the encoding: the magnitude is at most that of 1.0. It
excludes infinities and NaNs. -/
def Config.inUnit (v : F64) : Bool := decide (v &&& 0x7FFFFFFFFFFFFFFF#64 ≤ Config.one64)

/-- Keeps a value that R10 allows and puts 1.0 for one it does not, so that the functions got this way are exactly those
that R10 allows. Log 4. -/
def Config.clampUnit (v : F64) : F64 := if Config.inUnit v then v else Config.one64

/-- sinF of this CORE. At the angle +0.0 it is what 41_sampler.md R161, R169 and R170 state, dx(0) = 0 (log 5); at every other
angle it is free within R10 (log 4). -/
def Config.sinF (θ : F64) : F64 := if θ = Config.zero64 then Config.zero64 else Config.clampUnit (Config.rawSin θ)

/-- cosF of this CORE. At the angle +0.0 it is what 41_sampler.md R161, R169 and R170 state, dy(0) = R (log 5); at every other
angle it is free within R10 (log 4). -/
def Config.cosF (θ : F64) : F64 := if θ = Config.zero64 then Config.one64 else Config.clampUnit (Config.rawCos θ)

/-- CORE_BASE, the bus address of offset 0, aligned to 256 KiB (20_memory.md R81). Log 7. -/
def Config.coreBase : Nat := Config.rawBase * Config.busSpan

/-- The default of MAXPIX, the capacity of IMG and of DESC in bytes (00_scope.md R5). Log 6. -/
def Config.defaultMaxPix : Nat := 65536

/-- What R10 requires of one angle, and what R161 and R169 say of angle +0.0. -/
def Config.TrigEntry.legal (e : Config.TrigEntry) : Bool :=
  Config.inUnit e.sin && Config.inUnit e.cos &&
    (e.theta != Config.zero64 || (e.sin == Config.zero64 && e.cos == Config.one64))

/-- The angles of 41_sampler.md R162 for P = 8 (those of P = 4 are among them) with sinF and cosF there: the reference
instance, which a state may carry in its trig field (log 4). -/
def Config.trigTable : List Config.TrigEntry :=
  [ ⟨0x0000000000000000#64, 0x0000000000000000#64, 0x3FF0000000000000#64⟩,
    ⟨0x3FE921FB54442D18#64, 0x3FE6A09E667F3BCC#64, 0x3FE6A09E667F3BCD#64⟩,
    ⟨0x3FF921FB54442D18#64, 0x3FF0000000000000#64, 0x3C91A62633145C07#64⟩,
    ⟨0x4002D97C7F3321D2#64, 0x3FE6A09E667F3BCD#64, 0xBFE6A09E667F3BCC#64⟩,
    ⟨0x400921FB54442D18#64, 0x3CA1A62633145C07#64, 0xBFF0000000000000#64⟩,
    ⟨0x400F6A7A2955385E#64, 0xBFE6A09E667F3BCC#64, 0xBFE6A09E667F3BCE#64⟩,
    ⟨0x4012D97C7F3321D2#64, 0xBFF0000000000000#64, 0xBCAA79394C9E8A0A#64⟩,
    ⟨0x4015FDBBE9BBA775#64, 0xBFE6A09E667F3BCE#64, 0x3FE6A09E667F3BCB#64⟩ ]


end Sys2Proof
end

