-- ==== Sys2Proof/Machine/Binary64.lean ====
section
/-!
DEFINITION. IEEE 754 binary64 on 64-bit encodings (00_scope.md R7, R8, R9): the four operations, each rounding its exact
result once to nearest with ties to even, the comparisons, and the four functions to integers. A finite value is read as
`± mant · 2 ^ expo`, operated on exactly, and rounded by `roundPack`.
-/
namespace Sys2Proof.Machine

open Sys2Proof

/-- The biased exponent field, bits [62:52]. -/
def expField (x : F64) : Nat := (x.extractLsb' 52 11).toNat

/-- The fraction field, bits [51:0]. -/
def fracField (x : F64) : Nat := (x.extractLsb' 0 52).toNat

/-- The sign bit. -/
def isNeg (x : F64) : Bool := x.msb

/-- Neither an infinity nor a NaN (00_scope.md R8). -/
def isFinite (x : F64) : Bool := expField x != 2047

/-- A NaN. -/
def isNaN (x : F64) : Bool := expField x == 2047 && fracField x != 0

/-- An infinity. -/
def isInf (x : F64) : Bool := expField x == 2047 && fracField x == 0

/-- The integer significand of a finite value. -/
def mant (x : F64) : Nat := if expField x = 0 then fracField x else 2 ^ 52 + fracField x

/-- The exponent that goes with `mant`; for a zero, whose `mant` is 0, any would do. -/
def expo (x : F64) : Int :=
  if expField x = 0 then (if fracField x = 0 then 0 else -1074) else (expField x : Int) - 1075

/-- The exact value of a finite encoding, for statements about rounding. -/
def f64Value (x : F64) : ℚ := (if isNeg x then -1 else 1) * (mant x : ℚ) * (2 : ℚ) ^ expo x

/-- A sign and the 63 bits below it. -/
def withSign (neg : Bool) (bits : Nat) : F64 := BitVec.ofNat 64 (if neg then 2 ^ 63 + bits else bits)

/-- The 63 low bits of an infinity. -/
def infBits : Nat := 0x7FF0000000000000

/-- `m · 2 ^ (-d)` to the nearest integer, ties to even. `sticky` says that the exact value lies a little above `m`, by less
than one unit. -/
def roundShift (m : Nat) (d : Int) (sticky : Bool) : Nat :=
  if d ≤ 0 then m * 2 ^ (-d).toNat
  else
    let unit := 2 ^ d.toNat
    let q := m / unit
    let r := m % unit
    if unit < 2 * r || (2 * r == unit && (sticky || q % 2 == 1)) then q + 1 else q

/-- The binary64 value nearest `± m · 2 ^ e` (a little more in magnitude when `sticky`), ties to even, subnormals and overflow
to infinity included (00_scope.md R8). A significand that rounds up to the next power of two carries into the exponent. -/
def roundPack (neg : Bool) (m : Nat) (e : Int) (sticky : Bool) : F64 :=
  if m = 0 then withSign neg 0
  else
    let q := max (e + (m.log2 : Int) - 52) (-1074)
    let bits := (q + 1074).toNat * 2 ^ 52 + roundShift m (q - e) sticky
    withSign neg (if infBits ≤ bits then infBits else bits)

/-- A NaN whose payload is free (log 10). No command reaches it. -/
def nanOf (a b : F64) : F64 := Config.freeNaN a b ||| 0x7FF8000000000000#64

/-- A significand with its sign. -/
def signedMant (neg : Bool) (m : Nat) : Int := if neg then -(m : Int) else m

/-- Addition (00_scope.md R8). The sum of two finite values is formed exactly at the smaller exponent. -/
def fadd (a b : F64) : F64 :=
  if isNaN a || isNaN b || (isInf a && isInf b && isNeg a != isNeg b) then nanOf a b
  else if isInf a then a
  else if isInf b then b
  else
    let e := min (expo a) (expo b)
    let v := signedMant (isNeg a) (mant a * 2 ^ (expo a - e).toNat) + signedMant (isNeg b) (mant b * 2 ^ (expo b - e).toNat)
    if v = 0 then withSign (isNeg a && isNeg b) 0
    else roundPack (decide (v < 0)) v.natAbs e false

/-- The value with the other sign. -/
def fneg (a : F64) : F64 := a ^^^ 0x8000000000000000#64

/-- Subtraction (00_scope.md R8). -/
def fsub (a b : F64) : F64 := fadd a (fneg b)

/-- Multiplication (00_scope.md R8). -/
def fmul (a b : F64) : F64 :=
  let neg := isNeg a != isNeg b
  if isNaN a || isNaN b then nanOf a b
  else if isInf a || isInf b then
    if (isFinite a && mant a == 0) || (isFinite b && mant b == 0) then nanOf a b else withSign neg infBits
  else roundPack neg (mant a * mant b) (expo a + expo b) false

/-- Division (00_scope.md R8). The quotient is formed to 67 bits or more, the rest told by the sticky bit. -/
def fdiv (a b : F64) : F64 :=
  let neg := isNeg a != isNeg b
  if isNaN a || isNaN b || (isInf a && isInf b) then nanOf a b
  else if isInf a then withSign neg infBits
  else if isInf b then withSign neg 0
  else if mant b = 0 then (if mant a = 0 then nanOf a b else withSign neg infBits)
  else
    let n := mant a * 2 ^ 120
    roundPack neg (n / mant b) (expo a - expo b - 120) (n % mant b != 0)

/-- The place of a value that is no NaN on the number line: its encoding read as sign and magnitude, which puts +0 and −0
together. -/
def orderKey (x : F64) : Int := signedMant (isNeg x) (x &&& 0x7FFFFFFFFFFFFFFF#64).toNat

/-- `a ≤ b` as IEEE 754 has it (00_scope.md R8): false when either is a NaN. -/
def fle (a b : F64) : Bool := !isNaN a && !isNaN b && decide (orderKey a ≤ orderKey b)

/-- `a ≥ b` as IEEE 754 has it (00_scope.md R8): false when either is a NaN. -/
def fge (a b : F64) : Bool := fle b a

/-- `f64(n)` (00_scope.md R7). -/
def f64OfInt (n : Int) : F64 := roundPack (decide (n < 0)) n.natAbs 0 false

/-- `f64(n)` of a natural number. -/
def f64OfNat (n : Nat) : F64 := f64OfInt n

/-- The integer part of the magnitude of a finite value. -/
def wholePart (x : F64) : Nat := mant x * 2 ^ (expo x).toNat / 2 ^ (-expo x).toNat

/-- What is left of the magnitude below its integer part, in units of `2 ^ expo`. -/
def restPart (x : F64) : Nat := mant x * 2 ^ (expo x).toNat % 2 ^ (-expo x).toNat

/-- The greatest integer ≤ x (00_scope.md R9). -/
def floorF (x : F64) : Int :=
  if isFinite x then
    if isNeg x then -((if restPart x = 0 then wholePart x else wholePart x + 1 : Nat) : Int) else wholePart x
  else Config.freeInteger x

/-- The least integer ≥ x (00_scope.md R9). -/
def ceilF (x : F64) : Int :=
  if isFinite x then
    if isNeg x then -(wholePart x : Int) else ((if restPart x = 0 then wholePart x else wholePart x + 1 : Nat) : Int)
  else Config.freeInteger x

/-- The integer part of x, rounded toward zero (00_scope.md R9). -/
def truncF (x : F64) : Int :=
  if isFinite x then signedMant (isNeg x) (wholePart x) else Config.freeInteger x

/-- The integer nearest the exact value of x, halves away from zero (00_scope.md R9). -/
def rndAwayF (x : F64) : Int :=
  if isFinite x then
    signedMant (isNeg x) (if 2 ^ (-expo x).toNat ≤ 2 * restPart x then wholePart x + 1 else wholePart x)
  else Config.freeInteger x

end Sys2Proof.Machine
end

