-- ==== Sys2Proof/Machine/State.lean ====
section
/-!
DEFINITION. The state of CORE as plain data (10_state.md R30 to R50): the registers, the two buffers, the state of the command
in flight, and the model's own fields for what lies outside CORE (the host's accesses and their replies).
-/
namespace Sys2Proof.Machine

open Sys2Proof

/-- The ways the machine stops with a fault. There is none: the spec lets nothing stop CORE. A command error is a completion
code (60_exceptions.md R320), a bus error is the reply to one access (20_memory.md R86). Safe: no behaviour is cut off. -/
inductive Fault where
deriving DecidableEq, Repr

/-- The ways the machine refuses an instruction. -/
inductive Refusal where
  /-- Raised by an arm of exec for an instruction that has no meaning yet. Safe: the machine stops. No arm raises it. -/
  | notModelled (mnemonic : String)
deriving DecidableEq, Repr

/-- The completion codes of 60_exceptions.md R321, in the order of their numbers; 6 to 15 are never produced. -/
inductive Code where
  | ok | econfig | eoverflow | ebounds | eillegal | eoperand
deriving DecidableEq, Repr

/-- The phases of a command (10_state.md R48). A component command executes in `pass1`. -/
inductive Phase where
  | idle | check | fill | pass1 | pass2 | complete
deriving DecidableEq, Repr

/-- What a component command will write when it completes (10_state.md R48, "pending"): RESULT, and S registers by number. -/
structure Pending where
  result : Option Word := none
  samples : List (Nat × Word) := []
deriving DecidableEq, Repr

/-- The state of the command in flight that no register shows (10_state.md R48; `code` is that of 43_pipeline.md R230). -/
structure Flight where
  phase : Phase := .idle
  /-- row of the next pixel of the current pass -/
  row : Nat := 0
  /-- column of the next pixel of the current pass -/
  col : Nat := 0
  pending : Pending := {}
  /-- the barrier between the two RILBP passes (20_memory.md R94) -/
  pass1Done : Bool := false
  /-- the completion code the command will report -/
  code : Code := .ok
deriving DecidableEq, Repr

/-- Buffer contents, as the bytes written since reset: (offset, byte) pairs, offsets strictly rising. An offset that is not
listed has not been written, and reads as the free value of Config.freeResetByte (70_reset_and_hazards.md R372). -/
abbrev Memory := List Host.Cell

/-- The two buffers (10_state.md R46, R47). -/
inductive Buffer where
  | img | desc
deriving DecidableEq, Repr

/-- One host access (20_memory.md R81 to R83): a read of `width` bytes, or a write of the low `width` bytes of `data`, at an
offset from CORE_BASE. -/
inductive Access where
  | read (width : Nat) (offset : Offset)
  | write (width : Nat) (offset : Offset) (data : Word)
deriving DecidableEq, Repr

/-- The answer to one host access (20_memory.md R86, R92). -/
inductive Reply where
  /-- a read's data, zero-extended to 64 bits -/
  | data (value : Word)
  /-- an accepted write -/
  | accepted
  /-- the error response; the access had no effect -/
  | busError
deriving DecidableEq, Repr

/-- What happens next at CORE's boundary. Any order of events is a legal interleaving of host and pipeline
(70_reset_and_hazards.md R385). Logs 1 and 3. -/
inductive Event where
  /-- the host makes an access -/
  | access (a : Access)
  /-- the pipeline takes one core step -/
  | core
  /-- the pipeline takes core steps until the command in flight has completed -/
  | run
  /-- the platform drives the reset input (70_reset_and_hazards.md R370) -/
  | reset
deriving DecidableEq, Repr

/-- The state of CORE. -/
structure State where
  /-- CTRL (10_state.md R32) -/
  ctrl : Word
  /-- BAND (10_state.md R33) -/
  band : Word
  /-- DIM (10_state.md R34) -/
  dim : Word
  /-- CMD (10_state.md R35) -/
  cmd : Word
  /-- STATUS.BUSY (10_state.md R37) -/
  busy : Bool
  /-- STATUS.DONE (10_state.md R37) -/
  done : Bool
  /-- STATUS.ECODE (10_state.md R37) -/
  ecode : Code
  /-- ARG0 (10_state.md R38) -/
  arg0 : Word
  /-- ARG1 (10_state.md R39) -/
  arg1 : Word
  /-- RESULT (10_state.md R40) -/
  result : Word
  /-- PROGRESS (10_state.md R41) -/
  progress : Word
  /-- ERRINFO (10_state.md R42) -/
  errinfo : Word
  /-- S0..S7 (10_state.md R43) -/
  sregs : Vector Word 8
  /-- IMG (10_state.md R46) -/
  img : Memory
  /-- DESC (10_state.md R47) -/
  desc : Memory
  /-- the command in flight (10_state.md R48) -/
  flight : Flight
  /-- the model's own: what the host, the platform and the pipeline do next, in order (log 1) -/
  agenda : List Event
  /-- the model's own: the replies to the host's accesses, newest first (log 1) -/
  replies : List Reply
  /-- the model's own: the number of resets, which the free reset bytes depend on (log 8) -/
  epoch : Nat
  /-- the model's own: the number of DESC reads answered while BUSY = 1 (log 9) -/
  draws : Nat
  /-- the parameter MAXPIX, an argument of the model that nothing writes (00_scope.md R5, log 6) -/
  maxPix : Nat
  /-- the parameters sinF and cosF where they are known: an argument of the model that nothing writes. At an angle that is not
  listed they are Config.sinF and Config.cosF, which are free (00_scope.md R10, log 4) -/
  trig : List Config.TrigEntry
deriving DecidableEq, Repr

/-- The machine right after reset (10_state.md R50, 70_reset_and_hazards.md R370): P = 8, R = 1, B = 0.1, every other register
0, the buffers unwritten, nothing in flight, and no event waiting. MAXPIX has its default (R5), and no angle of the trig parameter is
known. -/
def State.reset : State where
  ctrl := 0x0000000000000108#64
  band := 0x3FB999999999999A#64
  dim := 0#64
  cmd := 0#64
  busy := false
  done := false
  ecode := .ok
  arg0 := 0#64
  arg1 := 0#64
  result := 0#64
  progress := 0#64
  errinfo := 0#64
  sregs := Vector.replicate 8 0#64
  img := []
  desc := []
  flight := {}
  agenda := []
  replies := []
  epoch := 0
  draws := 0
  maxPix := Config.defaultMaxPix
  trig := []

end Sys2Proof.Machine
end

