-- ==== Sys2Proof/Machine/Operands.lean ====
section
/-!
DEFINITION. The fields of the configuration and operand registers, and the tests a command makes on them
(10_state.md R32 to R39; 30_encoding.md R129 to R131; 60_exceptions.md R322 to R324).
-/
namespace Sys2Proof.Machine

open Sys2Proof

/-- CTRL.P, the number of sample points (10_state.md R32). -/
def State.cfgP (s : State) : Nat := (s.ctrl.extractLsb' 0 8).toNat

/-- CTRL.R, the sampling radius (10_state.md R32). -/
def State.cfgR (s : State) : Nat := (s.ctrl.extractLsb' 8 8).toNat

/-- CTRL.IE, the interrupt enable (10_state.md R32). -/
def State.intEnable (s : State) : Bool := s.ctrl.getLsbD 16

/-- DIM.H, the image height (10_state.md R34). -/
def State.height (s : State) : Nat := (s.dim.extractLsb' 0 16).toNat

/-- DIM.W, the image width and row pitch (10_state.md R34). -/
def State.width (s : State) : Nat := (s.dim.extractLsb' 16 16).toNat

/-- ARG0.ROW (10_state.md R38). -/
def State.argRow (s : State) : Nat := (s.arg0.extractLsb' 0 16).toNat

/-- ARG0.COL (10_state.md R38). -/
def State.argCol (s : State) : Nat := (s.arg0.extractLsb' 16 16).toNat

/-- ARG0.SIDX (10_state.md R38). -/
def State.argSidx (s : State) : Nat := (s.arg0.extractLsb' 32 8).toNat

/-- ARG1.VAL (10_state.md R39). -/
def State.argVal (s : State) : Byte := s.arg1.extractLsb' 0 8

/-- ARG1.SIDX1 (10_state.md R39). -/
def State.argSidx1 (s : State) : Nat := (s.arg1.extractLsb' 8 8).toNat

/-- B is legal: finite and not below +0.0 (42_encoder.md R203). −0.0 passes. -/
def bandLegal (b : F64) : Bool := isFinite b && fge b Config.zero64

/-- (r, c) is a pixel of the image, the test of 41_sampler.md R167. -/
def State.inImage (s : State) (r c : Int) : Bool :=
  decide (0 ≤ r) && decide (r < s.height) && decide (0 ≤ c) && decide (c < s.width)

/-- (r, c) lies in the interior region `[R, H−R) × [R, W−R)` (43_pipeline.md R231). -/
def State.inInterior (s : State) (r c : Nat) : Bool :=
  decide (s.cfgR ≤ r) && decide (r + s.cfgR < s.height) && decide (s.cfgR ≤ c) && decide (c + s.cfgR < s.width)

/-- The number of interior pixels, `max(0, H−2R) · max(0, W−2R)` (43_pipeline.md R231, R242). -/
def State.interiorCount (s : State) : Nat := (s.height - 2 * s.cfgR) * (s.width - 2 * s.cfgR)

/-- Which configuration a command reads, and so has checked (30_encoding.md R131). -/
structure Reads where
  p : Bool := false
  r : Bool := false
  b : Bool := false
  dim : Bool := false
deriving DecidableEq, Repr

/-- NOP and illegal words read nothing. -/
def readsNothing : Reads := {}

/-- LBP, RILBP, ULBP, RIPASS, SAMPLE and PIXEL with VAR ≠ 3 read P, R and DIM. -/
def readsGeometry : Reads := { p := true, r := true, dim := true }

/-- ALBP and PIXEL with VAR = 3 read P, R, B and DIM. -/
def readsGeometryBand : Reads := { p := true, r := true, b := true, dim := true }

/-- ENCODE with RULE = 0, RIMIN and UCLASS read P. -/
def readsP : Reads := { p := true }

/-- ENCODE with RULE = 1 reads P and B. -/
def readsPBand : Reads := { p := true, b := true }

/-- BANDCMP reads B. -/
def readsBand : Reads := { b := true }

/-- The ECONFIG test (60_exceptions.md R322): whether a configuration value the command reads is bad. -/
def badConfig (k : Reads) (s : State) : Bool :=
  (k.p && decide (s.cfgP = 0)) || (k.r && decide (s.cfgR = 0)) || (k.b && !bandLegal s.band) ||
    (k.dim && decide (s.maxPix < s.height * s.width))

/-- The EOVERFLOW test (60_exceptions.md R323). -/
def badWidth (k : Reads) (s : State) : Bool := k.p && decide (8 < s.cfgP)

/-- The EOPERAND tests (60_exceptions.md R324). Commands that read neither ARG0 nor ARG1. -/
def operandNone (_ : State) : Bool := false

/-- SAMPLE: ARG0[63:40] ≠ 0, or SIDX ≥ P. -/
def operandSample (s : State) : Bool := s.arg0.extractLsb' 40 24 != 0#24 || decide (s.cfgP ≤ s.argSidx)

/-- PIXEL: ARG0[63:32] ≠ 0. -/
def operandPixel (s : State) : Bool := s.arg0.extractLsb' 32 32 != 0#32

/-- ENCODE, RIMIN and UCLASS: ARG1[63:8] ≠ 0. -/
def operandCode (s : State) : Bool := s.arg1.extractLsb' 8 56 != 0#56

/-- BANDCMP: ARG1[63:16] ≠ 0, or SIDX1 > 7. -/
def operandBandcmp (s : State) : Bool := s.arg1.extractLsb' 16 48 != 0#48 || decide (7 < s.argSidx1)

end Sys2Proof.Machine
end

