-- ==== Sys2Proof/Machine/Flags.lean ====
section
/-!
DEFINITION. The status bits (10_state.md R37, R45, R49; 60_exceptions.md R321, R329). CORE has no condition codes.
-/
namespace Sys2Proof.Machine

open Sys2Proof

/-- The number of a completion code (60_exceptions.md R321). -/
def Code.value : Code → BitVec 4
  | .ok => 0
  | .econfig => 1
  | .eoverflow => 2
  | .ebounds => 3
  | .eillegal => 4
  | .eoperand => 5

/-- The interrupt output, the level DONE ∧ CTRL.IE (10_state.md R49; 60_exceptions.md R329). -/
def State.irq (s : State) : Bool := s.done && s.intEnable

/-- STATUS as it reads: ECODE [11:8], IRQ [3], DONE [1], BUSY [0], the rest 0 (10_state.md R37). -/
def State.statusWord (s : State) : Word :=
  BitVec.ofNat 64 (s.ecode.value.toNat * 2 ^ 8 + s.irq.toNat * 2 ^ 3 + s.done.toNat * 2 + s.busy.toNat)

/-- A write to STATUS: bit 1 = 1 clears DONE, nothing else has an effect (10_state.md R37). -/
def State.writeStatus (v : Word) (s : State) : State := { s with done := s.done && !v.getLsbD 1 }

end Sys2Proof.Machine
end

