-- ==== Sys2Proof/Machine/Ops.lean ====
section
/-!
DEFINITION. The operations on buffers and registers that all commands share: reading and writing buffer bytes, S registers,
issuing a command, ending it with an error (`State.raise`, the form an exception takes on CORE: 60_exceptions.md R325, R330),
and completing it (43_pipeline.md R230).
-/
namespace Sys2Proof.Machine

open Sys2Proof

/-! Buffers -/

/-- The byte written at an offset since reset, if any. -/
def Memory.written (m : Memory) (a : Nat) : Option Byte :=
  match m with
  | [] => none
  | (k, v) :: rest => if k = a then some v else Memory.written rest a

/-- The buffer after one byte is written, offsets still rising. -/
def Memory.set (m : Memory) (a : Nat) (v : Byte) : Memory :=
  match m with
  | [] => [(a, v)]
  | (k, u) :: rest =>
    if a < k then (a, v) :: (k, u) :: rest
    else if a = k then (a, v) :: rest
    else (k, u) :: Memory.set rest a v

/-- The buffer after `n` bytes of a little-endian value are written from an offset on (20_memory.md R83). -/
def Memory.setBytes (m : Memory) (a : Nat) (n : Nat) (v : Word) : Memory :=
  match n with
  | 0 => m
  | k + 1 => Memory.setBytes (Memory.set m a (v.extractLsb' 0 8)) (a + 1) k (v >>> 8)

/-- The buffer after the offsets below `n` are set to 0 (43_pipeline.md R234). -/
def Memory.zeroFill (m : Memory) (n : Nat) : Memory :=
  (List.range n).map (fun a => (a, 0#8)) ++ m.filter (fun cell => decide (n ≤ cell.1))

/-- The canonical form: offsets strictly rising. An unlisted offset has no written byte, so no entry can equal what it reads
as. -/
def Memory.wf : Memory → Bool
  | [] => true
  | [_] => true
  | (a, _) :: (b, v) :: rest => decide (a < b) && Memory.wf ((b, v) :: rest)

/-- Every offset written lies below `n`. -/
def Memory.below (m : Memory) (n : Nat) : Bool := m.all (fun cell => decide (cell.1 < n))

/-- The byte of IMG at an offset: as written, or the free value it has had since reset (10_state.md R46,
70_reset_and_hazards.md R372). -/
def State.imgByte (s : State) (a : Nat) : Byte :=
  (s.img.written a).getD (Config.freeResetByte s.epoch false a)

/-- The byte of DESC at an offset, likewise (10_state.md R47). -/
def State.descByte (s : State) (a : Nat) : Byte :=
  (s.desc.written a).getD (Config.freeResetByte s.epoch true a)

/-- The offset of pixel (r, c), `r·W + c` (10_state.md R46). -/
def State.cellOffset (s : State) (r c : Nat) : Nat := r * s.width + c

/-- IMG[r, c] (00_scope.md R11). -/
def State.imgAt (s : State) (r c : Nat) : Byte := s.imgByte (s.cellOffset r c)

/-- DESC[r, c] (00_scope.md R11). -/
def State.descAt (s : State) (r c : Nat) : Byte := s.descByte (s.cellOffset r c)

/-- DESC[r, c] <- v (20_memory.md R91). -/
def State.setDescAt (r c : Nat) (v : Byte) (s : State) : State :=
  { s with desc := s.desc.set (s.cellOffset r c) v }

/-- The zero-fill of DESC[0..H·W−1] (43_pipeline.md R234). -/
def State.zeroFillDesc (s : State) : State := { s with desc := s.desc.zeroFill (s.height * s.width) }

/-! Sample registers -/

/-- S[p] (10_state.md R43). -/
def State.sreg (s : State) (p : Nat) : Word := s.sregs.getD p 0#64

/-- The S registers after a list of writes (10_state.md R43). -/
def setSregs (v : Vector Word 8) : List (Nat × Word) → Vector Word 8
  | [] => v
  | (p, x) :: rest => setSregs (v.setIfInBounds p x) rest

/-! The life cycle of a command -/

/-- Issue (43_pipeline.md R230, stage 1): a word is written to CMD while BUSY = 0. -/
def State.issue (w : Word) (s : State) : State :=
  { s with cmd := w, busy := true, done := false, ecode := .ok, progress := 0#64, errinfo := 0#64,
           flight := { phase := .check } }

/-- `raise E` (60_exceptions.md R325): the command goes to its completion with code E, and what was pending is discarded. -/
def State.raise (e : Code) (s : State) : State := { s with flight := { phase := .complete, code := e } }

/-- A failed bounds test: its coordinates and sample index, 0xFF for the centre (60_exceptions.md R326). -/
structure OutOfBounds where
  row : Int
  col : Int
  index : Nat
deriving DecidableEq, Repr

/-- The ERRINFO word of a failed bounds test, EP over ECOL over EROW (10_state.md R42; 60_exceptions.md R326). -/
def OutOfBounds.info (o : OutOfBounds) : Word :=
  0#8 ++ BitVec.ofNat 8 o.index ++ BitVec.ofInt 24 o.col ++ BitVec.ofInt 24 o.row

/-- `raise EBOUNDS` (60_exceptions.md R326): ERRINFO records the access, the command ends. -/
def State.raiseBounds (o : OutOfBounds) (s : State) : State :=
  ({ s with errinfo := o.info }).raise .ebounds

/-- Execution is over without error; `p` is what completion will write. -/
def State.finish (p : Pending) (s : State) : State := { s with flight := { phase := .complete, pending := p } }

/-- The new value of a register at a completion with code 0, its old value at any other (10_state.md R40). -/
def whenOk {α : Type} (c : Code) (new old : α) : α :=
  match c with
  | .ok => new
  | .econfig | .eoverflow | .ebounds | .eillegal | .eoperand => old

/-- Completion (43_pipeline.md R230, stage 4), all at one instant (20_memory.md R96). RESULT and S are written only with code 0
(10_state.md R40). Afterwards the command state is idle with nothing pending. -/
def State.complete (s : State) : State :=
  { s with
    result := whenOk s.flight.code (s.flight.pending.result.getD s.result) s.result
    sregs := whenOk s.flight.code (setSregs s.sregs s.flight.pending.samples) s.sregs
    ecode := s.flight.code
    busy := false
    done := true
    flight := {} }

/-- Reset (70_reset_and_hazards.md R370 to R372): every piece of state takes its reset value. The buffer bytes become new free
values, so the epoch moves on (log 8). What lies outside CORE is not reset, the
host's coming accesses and past replies, nor are the parameters. -/
def State.resetPulse (s : State) : State :=
  { State.reset with agenda := s.agenda, replies := s.replies, epoch := s.epoch + 1, draws := s.draws,
                     maxPix := s.maxPix, trig := s.trig }

end Sys2Proof.Machine
end

