-- ==== Sys2Proof/Machine/Bus.lean ====
section
/-!
DEFINITION. The host bus: the address map, the access rules, and what each access reads or writes (20_memory.md R80 to R89;
10_state.md R31 to R44).
-/
namespace Sys2Proof.Machine

open Sys2Proof

/-- The registers of the CSR window (10_state.md R31 to R43). -/
inductive Csr where
  | id | ctrl | band | dim | cmd | status | arg0 | arg1 | result | progress | errinfo
  | s (p : Fin 8)
deriving DecidableEq, Repr

/-- The offset of a register (10_state.md R31 to R43). -/
def Csr.offset : Csr → Nat
  | .id => 0x000
  | .ctrl => 0x008
  | .band => 0x010
  | .dim => 0x018
  | .cmd => 0x020
  | .status => 0x028
  | .arg0 => 0x030
  | .arg1 => 0x038
  | .result => 0x040
  | .progress => 0x048
  | .errinfo => 0x050
  | .s p => 0x080 + 8 * p.val

/-- All registers of the CSR window. -/
def allCsrs : List Csr :=
  [.id, .ctrl, .band, .dim, .cmd, .status, .arg0, .arg1, .result, .progress, .errinfo,
   .s 0, .s 1, .s 2, .s 3, .s 4, .s 5, .s 6, .s 7]

/-- The register at an offset; none at a hole or at a misaligned offset (10_state.md R44, 20_memory.md R82). -/
def csrAt (offset : Nat) : Option Csr := allCsrs.find? (fun r => r.offset == offset)

/-- What an access of given width and offset reaches. -/
inductive Target where
  | csr (r : Csr)
  /-- bytes of a buffer from an offset on -/
  | bytes (b : Buffer) (offset : Nat)
  /-- nothing: bus error -/
  | none
deriving DecidableEq, Repr

/-- The widths the windows accept (20_memory.md R83). -/
def widthOk (width : Nat) : Bool := width == 1 || width == 2 || width == 4 || width == 8

/-- Whether a window accepts an access (20_memory.md R83, R85). -/
def windowOk (s : State) (width k : Nat) : Bool :=
  widthOk width && k % width == 0 && decide (k + width ≤ s.maxPix)

/-- The address map (20_memory.md R81, R82, R85, R86). -/
def target (s : State) (width : Nat) (offset : Offset) : Target :=
  let a := offset.toNat
  if a < 0x1000 then
    match csrAt a with
    | some r => if width = 8 then .csr r else .none
    | none => .none
  else if a < 0x10000 then .none
  else if a < 0x20000 then
    if windowOk s width (a - 0x10000) then .bytes .img (a - 0x10000) else .none
  else if a < 0x30000 then
    if windowOk s width (a - 0x20000) then .bytes .desc (a - 0x20000) else .none
  else .none

/-- What a register reads as (10_state.md R31 to R43). -/
def State.readCsr (s : State) : Csr → Word
  | .id => Config.idValue
  | .ctrl => s.ctrl
  | .band => s.band
  | .dim => s.dim
  | .cmd => s.cmd
  | .status => s.statusWord
  | .arg0 => s.arg0
  | .arg1 => s.arg1
  | .result => s.result
  | .progress => s.progress
  | .errinfo => s.errinfo
  | .s p => s.sreg p.val

/-- The bits of CTRL that are stored: P, R and IE (10_state.md R32). -/
def ctrlMask : Word := 0x000000000001FFFF#64

/-- The bits of DIM that are stored: H and W (10_state.md R34). -/
def dimMask : Word := 0x00000000FFFFFFFF#64

/-- Whether a register refuses writes while BUSY = 1 (20_memory.md R87). -/
def Csr.locked : Csr → Bool
  | .ctrl | .band | .dim | .cmd | .arg0 | .arg1 | .s _ => true
  | .id | .status | .result | .progress | .errinfo => false

/-- An accepted write to a register (10_state.md R31 to R43; 20_memory.md R89). A write to CMD issues the command. -/
def State.writeCsr (r : Csr) (v : Word) (s : State) : State :=
  match r with
  | .ctrl => { s with ctrl := v &&& ctrlMask }
  | .band => { s with band := v }
  | .dim => { s with dim := v &&& dimMask }
  | .cmd => s.issue v
  | .status => s.writeStatus v
  | .arg0 => { s with arg0 := v }
  | .arg1 => { s with arg1 := v }
  | .s p => { s with sregs := s.sregs.setIfInBounds p.val v }
  | .id | .result | .progress | .errinfo => s

/-- The little-endian value of `n` bytes from an offset on, given the byte at each offset (20_memory.md R83). -/
def gather (byteAt : Nat → Byte) (a : Nat) : Nat → Word
  | 0 => 0#64
  | k + 1 => (byteAt a).setWidth 64 ||| (gather byteAt (a + 1) k <<< 8)

/-- A read of `n` buffer bytes (20_memory.md R88): as stored, but that DESC gives any value while BUSY = 1. -/
def State.readBytes (s : State) (b : Buffer) (a n : Nat) : Word :=
  match b with
  | .img => gather s.imgByte a n
  | .desc => if s.busy then gather (Config.freeBusyByte s.draws) a n else gather s.descByte a n

/-- The next DESC read while BUSY = 1 is a new draw (93_implementation_defined.md S2: "per byte and per read"). -/
def State.countDraw (b : Buffer) (s : State) : State :=
  if s.busy && b == .desc then { s with draws := s.draws + 1 } else s

/-- An accepted write of `n` buffer bytes (20_memory.md R83). -/
def State.writeBytes (b : Buffer) (a n : Nat) (v : Word) (s : State) : State :=
  match b with
  | .img => { s with img := s.img.setBytes a n v }
  | .desc => { s with desc := s.desc.setBytes a n v }

/-- The state after one host access and the reply to it (20_memory.md R82 to R89, R92). A refused access changes nothing. -/
def hostAccess (a : Access) (s : State) : State × Reply :=
  match a with
  | .read width offset =>
    match target s width offset with
    | .csr r => (s, .data (s.readCsr r))
    | .bytes b k => (s.countDraw b, .data (s.readBytes b k width))
    | .none => (s, .busError)
  | .write width offset v =>
    match target s width offset with
    | .csr r => if s.busy && r.locked then (s, .busError) else (s.writeCsr r v, .accepted)
    | .bytes b k => if s.busy then (s, .busError) else (s.writeBytes b k width v, .accepted)
    | .none => (s, .busError)

/-- The host access as an event: the reply goes to the host. -/
def State.access (a : Access) (s : State) : State :=
  { (hostAccess a s).1 with replies := (hostAccess a s).2 :: (hostAccess a s).1.replies }

/-- The offset in CORE's space of a bus address, if the address selects the CORE at `base` (20_memory.md R80, R81): its CORE_BASE,
Config.coreBase. The platform makes this selection; the events of a state carry offsets (log 7). -/
def busOffset (base address : Nat) : Option Offset :=
  if base ≤ address ∧ address < base + Config.busSpan then
    some (BitVec.ofNat 18 (address - base))
  else none

end Sys2Proof.Machine
end

