-- ==== Sys2Proof/Syntax.lean ====
section
/-!
DEFINITION. The commands of CORE: the 24 rows of spec/opcode_table.json (30_encoding.md R128), and the field values a command
word is made of (30_encoding.md R121 to R126).
-/
namespace Sys2Proof

/-- One constructor for each row of the opcode table. A command has no operand in its word: its operands are CSRs
(30_encoding.md R135). -/
inductive Instr where
  | nop
  | lbpN
  | lbpB
  | rilbp
  | ulbp
  | albpN
  | albpB
  | ripass
  | sampleN
  | sampleB
  | sampleT
  | encodeTM
  | encodeBM
  | encodeTL
  | encodeBL
  | bandcmp
  | rimin
  | uclass
  | pixelLbpN
  | pixelLbpB
  | pixelRilbp
  | pixelUlbp
  | pixelAlbpN
  | pixelAlbpB
deriving DecidableEq, Repr

/-- The operations OPC selects (30_encoding.md R122). -/
inductive Opc where
  | nop | lbp | rilbp | ulbp | albp | ripass | sample | encode | bandcmp | rimin | uclass | pixel
deriving DecidableEq, Repr

/-- The sampling modes SMODE selects (30_encoding.md R123); 0b11 is reserved and is none of them. -/
inductive Mode where
  | nearest | bilinear | truncate
deriving DecidableEq, Repr

/-- The comparison rules RULE selects (30_encoding.md R124). -/
inductive Rule where
  | threshold | band
deriving DecidableEq, Repr

/-- The bit packings ORDER selects (30_encoding.md R125). -/
inductive Order where
  | msbFirst | lsbFirst
deriving DecidableEq, Repr

/-- The variants of LBPSPEC §4.3, selected by VAR for PIXEL (30_encoding.md R126). -/
inductive Variant where
  | lbp | rilbp | ulbp | albp
deriving DecidableEq, Repr

/-- A command word by its fields, before it is known that the operation takes these values (30_encoding.md R121). A field
that is zero in the word stands here as the first value of its type. -/
structure Fields where
  opc : Opc
  smode : Mode := .nearest
  rule : Rule := .threshold
  order : Order := .msbFirst
  var : Variant := .lbp
deriving DecidableEq, Repr

/-- The fields of each command (the table of 30_encoding.md R128). -/
def Instr.fields : Instr → Fields
  | .nop => { opc := .nop }
  | .lbpN => { opc := .lbp }
  | .lbpB => { opc := .lbp, smode := .bilinear }
  | .rilbp => { opc := .rilbp }
  | .ulbp => { opc := .ulbp }
  | .albpN => { opc := .albp }
  | .albpB => { opc := .albp, smode := .bilinear }
  | .ripass => { opc := .ripass }
  | .sampleN => { opc := .sample }
  | .sampleB => { opc := .sample, smode := .bilinear }
  | .sampleT => { opc := .sample, smode := .truncate }
  | .encodeTM => { opc := .encode }
  | .encodeBM => { opc := .encode, rule := .band }
  | .encodeTL => { opc := .encode, order := .lsbFirst }
  | .encodeBL => { opc := .encode, rule := .band, order := .lsbFirst }
  | .bandcmp => { opc := .bandcmp }
  | .rimin => { opc := .rimin }
  | .uclass => { opc := .uclass }
  | .pixelLbpN => { opc := .pixel }
  | .pixelLbpB => { opc := .pixel, smode := .bilinear }
  | .pixelRilbp => { opc := .pixel, var := .rilbp }
  | .pixelUlbp => { opc := .pixel, var := .ulbp }
  | .pixelAlbpN => { opc := .pixel, var := .albp }
  | .pixelAlbpB => { opc := .pixel, smode := .bilinear, var := .albp }

end Sys2Proof
end

