-- ==== Sys2Proof/Machine/Encoder.lean ====
section
/-!
DEFINITION. lbp_encoder and band_threshold_postproc: the comparison rules and the bit packings of 42_encoder.md R200 to R205.
-/
namespace Sys2Proof.Machine

open Sys2Proof

/-- The threshold rule (42_encoder.md R200). -/
def bitT (s : F64) (cen : Byte) : Bool := fge s (f64OfNat cen.toNat)

/-- The lower band bound (42_encoder.md R201). -/
def bandLower (b : F64) (cen : Byte) : F64 := fmul (f64OfNat cen.toNat) (fsub Config.one64 b)

/-- The upper band bound (42_encoder.md R201). -/
def bandUpper (b : F64) (cen : Byte) : F64 := fmul (f64OfNat cen.toNat) (fadd Config.one64 b)

/-- The band rule (42_encoder.md R202). -/
def bitB (b : F64) (s : F64) (cen : Byte) : Bool := fle (bandLower b cen) s && fle s (bandUpper b cen)

/-- The bit of one sample under a rule; the band rule takes B from BAND. -/
def ruleBit (k : Rule) (b : F64) (cen : Byte) (s : F64) : Bool :=
  match k with
  | .threshold => bitT s cen
  | .band => bitB b s cen

/-- LSB-first packing, `Σ bit[p]·2^p` (42_encoder.md R205). -/
def packL : List Bool → Nat
  | [] => 0
  | b :: rest => b.toNat + 2 * packL rest

/-- MSB-first packing, `Σ bit[p]·2^(P−1−p)` (42_encoder.md R204). -/
def packM (bits : List Bool) : Nat := packL bits.reverse

/-- The packing of an order. -/
def packBits (o : Order) (bits : List Bool) : Nat :=
  match o with
  | .msbFirst => packM bits
  | .lsbFirst => packL bits

/-- The code of a list of samples: `encode(center, samples, rule)` (42_encoder.md R207). -/
def encodeSamples (k : Rule) (o : Order) (b : F64) (cen : Byte) (samples : List F64) : Nat :=
  packBits o (samples.map (ruleBit k b cen))

end Sys2Proof.Machine
end

