-- ==== Sys2Proof/Machine/Rotation.lean ====
section
/-!
DEFINITION. rotation_invariant_selector: RIMIN8 (44_rotation.md R280, R281; 00_scope.md R13).
-/
namespace Sys2Proof.Machine

open Sys2Proof

/-- `rotl8(v, k)` for k in 0..7 (00_scope.md R13). -/
def rotl8 (v : Byte) (k : Nat) : Byte := if k = 0 then v else (v <<< k) ||| (v >>> (8 - k))

/-- The smaller of two codes. -/
def minByte (a b : Byte) : Byte := if b < a then b else a

/-- The least of rotations 0 to k. -/
def minRotation (v : Byte) : Nat → Byte
  | 0 => rotl8 v 0
  | k + 1 => minByte (minRotation v k) (rotl8 v (k + 1))

/-- `RIMIN8(v, P)`, the least of rotations 0 to P−1 (44_rotation.md R280). Only P rotations are tried (R281). -/
def rimin8 (v : Byte) (P : Nat) : Byte := minRotation v (P - 1)

end Sys2Proof.Machine
end

