-- ==== Sys2Proof/Machine/Sampler.lean ====
section
/-!
DEFINITION. bilinear_sampler: the function `Sample(r, c, p, mode)` of 41_sampler.md R160 to R168.
-/
namespace Sys2Proof.Machine

open Sys2Proof

/-- The angle of sample index p of P (41_sampler.md R160). -/
def theta (P p : Nat) : F64 :=
  fdiv (fmul (fmul Config.two64 Config.pi64) (f64OfNat p)) (f64OfNat P)

/-- sinF of the CORE a state is of (00_scope.md R10): as known there, else free. -/
def State.sinF (s : State) (θ : F64) : F64 :=
  match s.trig.find? (fun e => e.theta == θ) with
  | some e => e.sin
  | none => Config.sinF θ

/-- cosF of the CORE a state is of (00_scope.md R10): as known there, else free. -/
def State.cosF (s : State) (θ : F64) : F64 :=
  match s.trig.find? (fun e => e.theta == θ) with
  | some e => e.cos
  | none => Config.cosF θ

/-- The row coordinate X of sample p (41_sampler.md R161). -/
def sampleX (s : State) (r p : Nat) : F64 :=
  fadd (f64OfNat r) (fmul (f64OfNat s.cfgR) (s.sinF (theta s.cfgP p)))

/-- The column coordinate Y of sample p (41_sampler.md R161). -/
def sampleY (s : State) (col p : Nat) : F64 :=
  fadd (f64OfNat col) (fmul (f64OfNat s.cfgR) (s.cosF (theta s.cfgP p)))

/-- `check(rr, cc, p)` and then the pixel there (41_sampler.md R167): its value as binary64, or the failed test. -/
def readPixel (s : State) (rr cc : Int) (p : Nat) : Except OutOfBounds F64 :=
  if s.inImage rr cc then .ok (f64OfNat (s.imgAt rr.toNat cc.toNat).toNat)
  else .error { row := rr, col := cc, index := p }

/-- The blend of four corners with weights wx and wy (41_sampler.md R165). -/
def blend (wx wy tl tr bl br : F64) : F64 :=
  let top := fadd (fmul (fsub Config.one64 wx) tl) (fmul wx tr)
  let bottom := fadd (fmul (fsub Config.one64 wx) bl) (fmul wx br)
  fadd (fmul (fsub Config.one64 wy) top) (fmul wy bottom)

/-- Nearest mode (41_sampler.md R163). -/
def sampleNearest (s : State) (x y : F64) (p : Nat) : Except OutOfBounds F64 :=
  readPixel s (rndAwayF x) (rndAwayF y) p

/-- Truncate mode (41_sampler.md R166). -/
def sampleTruncate (s : State) (x y : F64) (p : Nat) : Except OutOfBounds F64 :=
  readPixel s (truncF x) (truncF y) p

/-- Bilinear mode (41_sampler.md R164, R165): the corners tested in the order TL, TR, BL, BR, then the blend. -/
def sampleBilinear (s : State) (x y : F64) (p : Nat) : Except OutOfBounds F64 := do
  let tl ← readPixel s (floorF x) (floorF y) p
  let tr ← readPixel s (ceilF x) (floorF y) p
  let bl ← readPixel s (floorF x) (ceilF y) p
  let br ← readPixel s (ceilF x) (ceilF y) p
  return blend (fsub x (f64OfInt (floorF x))) (fsub y (f64OfInt (floorF y))) tl tr bl br

/-- The sampling of one mode at given coordinates. -/
def sampleMode (s : State) (m : Mode) (x y : F64) (p : Nat) : Except OutOfBounds F64 :=
  match m with
  | .nearest => sampleNearest s x y p
  | .bilinear => sampleBilinear s x y p
  | .truncate => sampleTruncate s x y p

/-- The sampling function (41_sampler.md R168). -/
def sample (s : State) (m : Mode) (r col p : Nat) : Except OutOfBounds F64 :=
  sampleMode s m (sampleX s r p) (sampleY s col p) p

/-- The samples of a list of indices in order, up to the first failed test (43_pipeline.md R233, R235). -/
def sampleList (s : State) (m : Mode) (r col : Nat) : List Nat → Except OutOfBounds (List F64)
  | [] => .ok []
  | p :: rest => do
    let v ← sample s m r col p
    let vs ← sampleList s m r col rest
    return v :: vs

end Sys2Proof.Machine
end

