-- ==== Sys2Proof/Machine/Uniformity.lean ====
section
/-!
DEFINITION. uniformity_classifier: TR8 and UCLS8 (45_uniformity.md R300, R301).
-/
namespace Sys2Proof.Machine

open Sys2Proof

/-- The number of adjacent positions that differ, without wrap-around (45_uniformity.md R300). -/
def tr8 (v : Byte) : Nat :=
  ((List.range 7).map (fun i => (v.getLsbD i ^^ v.getLsbD (i + 1)).toNat)).sum

/-- `UCLS8(v, P)`: a uniform code as it is, the sentinel P + 1 for any other (45_uniformity.md R301). -/
def ucls8 (v : Byte) (P : Nat) : Byte := if tr8 v ≤ 2 then v else BitVec.ofNat 8 (P + 1)

end Sys2Proof.Machine
end

