-- ==== Sys2Proof/Machine/Descriptor.lean ====
section
/-!
DEFINITION. The per-pixel descriptor `Desc(var, mode, r, c)` of 43_pipeline.md R235.
-/
namespace Sys2Proof.Machine

open Sys2Proof

/-- The sampling mode of a variant: fixed for RI-LBP and ULBP, the command's otherwise (30_encoding.md R126). -/
def variantMode (v : Variant) (m : Mode) : Mode :=
  match v with
  | .lbp => m
  | .rilbp => .bilinear
  | .ulbp => .truncate
  | .albp => m

/-- The comparison rule of a variant (30_encoding.md R126). -/
def variantRule : Variant → Rule
  | .lbp => .threshold
  | .rilbp => .threshold
  | .ulbp => .threshold
  | .albp => .band

/-- The bit packing of a variant (42_encoder.md R206). -/
def variantOrder : Variant → Order
  | .lbp => .msbFirst
  | .rilbp => .msbFirst
  | .ulbp => .lsbFirst
  | .albp => .msbFirst

/-- The post-step of a variant on its code (30_encoding.md R126). -/
def variantPost (v : Variant) (P : Nat) (code : Byte) : Byte :=
  match v with
  | .lbp => code
  | .rilbp => rimin8 code P
  | .ulbp => ucls8 code P
  | .albp => code

/-- The code of a pixel from its centre intensity and its samples. -/
def pixelCode (v : Variant) (P : Nat) (b : F64) (cen : Byte) (samples : List F64) : Byte :=
  variantPost v P (BitVec.ofNat 8 (encodeSamples (variantRule v) (variantOrder v) b cen samples))

/-- `Desc(var, mode, r, c)` (43_pipeline.md R235): the code and the samples, or the first failed bounds test, the centre's
first with index 0xFF. -/
def describe (v : Variant) (m : Mode) (s : State) (r col : Nat) :
    Except OutOfBounds (Byte × List F64) :=
  if s.inImage r col then do
    let samples ← sampleList s (variantMode v m) r col (List.range s.cfgP)
    return (pixelCode v s.cfgP s.band (s.imgAt r col) samples, samples)
  else .error { row := r, col := col, index := 0xFF }

end Sys2Proof.Machine
end

