-- ==== Sys2Proof/Machine/Engine.lean ====
section
/-!
DEFINITION. The life cycle every command follows (43_pipeline.md R230) in core steps: check, zero-fill, one step a pixel and
pass, or one step in all for a component command, and completion. A command is a `Plan`: what it reads and checks, and what it
executes.
-/
namespace Sys2Proof.Machine

open Sys2Proof

/-- The byte a pass gives cell (r, c) of DESC, from the state before the pixel step. -/
abbrev Pass := State → Nat → Nat → Except OutOfBounds Byte

/-- What a command executes (43_pipeline.md R230, stage 3). -/
inductive Work where
  /-- nothing: NOP -/
  | nothing
  /-- a component command: what completion will write -/
  | component (compute : State → Except OutOfBounds Pending)
  /-- a whole-image command: whether it zero-fills, its pass, and its second pass if it has one -/
  | image (zeroFill : Bool) (first : Pass) (second : Option Pass)

/-- A command: whether its word is legal, the configuration it reads, its operand test, and its work. -/
structure Plan where
  legal : Bool := true
  reads : Reads := readsNothing
  operandBad : State → Bool := operandNone
  work : Work := .nothing

/-- A word that is no command (60_exceptions.md R327). -/
def illegalPlan : Plan := { legal := false }

/-- The check stage in the order of 60_exceptions.md R328: the code of the first check that fails. -/
def checkCode (k : Plan) (s : State) : Option Code :=
  if !k.legal then some .eillegal
  else if badConfig k.reads s then some .econfig
  else if badWidth k.reads s then some .eoverflow
  else if k.operandBad s then some .eoperand
  else none

/-- A command that has passed its checks starts: nothing is pending, the cursor is on the first interior pixel. -/
def State.startWork (w : Work) (s : State) : State :=
  match w with
  | .nothing => s.finish {}
  | .component _ => { s with flight := { phase := .pass1 } }
  | .image zeroFill _ _ =>
    { s with flight := { phase := if zeroFill then .fill else .pass1, row := s.cfgR, col := s.cfgR } }

/-- The place after (row, col) in row-major order of the interior (43_pipeline.md R233). -/
def State.nextPlace (s : State) (row col : Nat) : Nat × Nat :=
  if col + 1 + s.cfgR < s.width then (row, col + 1) else (row + 1, s.cfgR)

/-- PROGRESS <- PROGRESS + 1, and on to the next pixel (43_pipeline.md R242). -/
def State.advance (s : State) : State :=
  { s with
    progress := s.progress + 1#64
    flight := { s.flight with
      row := (s.nextPlace s.flight.row s.flight.col).1
      col := (s.nextPlace s.flight.row s.flight.col).2 } }

/-- One pixel step of a pass (43_pipeline.md R233, R242; R247 when a bounds test fails). -/
def pixelStep (f : Pass) (s : State) : State :=
  match f s s.flight.row s.flight.col with
  | .ok v => (s.setDescAt s.flight.row s.flight.col v).advance
  | .error o => s.raiseBounds o

/-- The second pass begins only now, after every step of the first (20_memory.md R94). -/
def State.startSecond (s : State) : State :=
  { s with flight := { phase := .pass2, row := s.cfgR, col := s.cfgR, pass1Done := true } }

/-- A core step of the first pass: a pixel step while the cursor is in the interior, and then the second pass or the end; or
the whole of a component command. -/
def firstPassStep (w : Work) (s : State) : State :=
  match w with
  | .nothing => s.finish {}
  | .component compute =>
    match compute s with
    | .ok p => s.finish p
    | .error o => s.raiseBounds o
  | .image _ first second =>
    if s.inInterior s.flight.row s.flight.col then pixelStep first s
    else
      match second with
      | some _ => s.startSecond
      | none => s.finish {}

/-- A core step of the second pass. -/
def secondPassStep (w : Work) (s : State) : State :=
  match w with
  | .image _ _ (some second) =>
    if s.inInterior s.flight.row s.flight.col then pixelStep second s else s.finish {}
  | _ => s.finish {}

/-- The zero-fill, in one core step, for a command that has one (43_pipeline.md R234). -/
def fillStep (w : Work) (s : State) : State :=
  match w with
  | .image true _ _ => { s.zeroFillDesc with flight := { s.flight with phase := .pass1 } }
  | _ => s.finish {}

/-- One core step of a command in flight (43_pipeline.md R230). -/
def coreStep (k : Plan) (s : State) : State :=
  match s.flight.phase with
  | .idle => s
  | .check =>
    match checkCode k s with
    | some e => s.raise e
    | none => s.startWork k.work
  | .fill => fillStep k.work s
  | .pass1 => firstPassStep k.work s
  | .pass2 => secondPassStep k.work s
  | .complete => s.complete

/-- Core steps until the command has completed, at most `n`. -/
def runSteps (k : Plan) : Nat → State → State
  | 0, s => s
  | n + 1, s => if s.flight.phase = .idle then s else runSteps k n (coreStep k s)

/-- More core steps than any command takes (70_reset_and_hazards.md R385, finite completion): two passes over the image with
their ends, and the other stages. -/
def State.stepBound (s : State) : Nat := 2 * ((s.height + 1) * (s.width + 1)) + 8

/-- A command from where it is to its completion. -/
def runPlan (k : Plan) (s : State) : Host.Outcome State Fault Refusal :=
  .next (runSteps k s.stepBound s)

end Sys2Proof.Machine
end

