-- ==== Sys2Proof/Machine/CodeCommands.lean ====
section
/-!
DEFINITION. RIMIN (44_rotation.md R282) and UCLASS (45_uniformity.md R302).
-/
namespace Sys2Proof.Machine

open Sys2Proof

/-- What RIMIN computes from ARG1.VAL (44_rotation.md R282). -/
def riminWork (s : State) : Except OutOfBounds Pending :=
  .ok { result := some ((rimin8 s.argVal s.cfgP).setWidth 64) }

/-- What UCLASS computes from ARG1.VAL (45_uniformity.md R302). -/
def uclassWork (s : State) : Except OutOfBounds Pending :=
  .ok { result := some ((ucls8 s.argVal s.cfgP).setWidth 64) }

/-- RIMIN as a plan (44_rotation.md R282). -/
def planRimin : Plan :=
  { reads := readsP, operandBad := operandCode, work := .component riminWork }

/-- RIMIN (44_rotation.md R282). -/
def execRimin (s : State) : Host.Outcome State Fault Refusal := runPlan planRimin s

/-- UCLASS as a plan (45_uniformity.md R302). -/
def planUclass : Plan :=
  { reads := readsP, operandBad := operandCode, work := .component uclassWork }

/-- UCLASS (45_uniformity.md R302). -/
def execUclass (s : State) : Host.Outcome State Fault Refusal := runPlan planUclass s

end Sys2Proof.Machine
end

