-- ==== Sys2Proof/Machine/EncodeCommands.lean ====
section
/-!
DEFINITION. ENCODE (42_encoder.md R207) and BANDCMP (R208).
-/
namespace Sys2Proof.Machine

open Sys2Proof

/-- What ENCODE computes from S[0..P−1] and ARG1.VAL (42_encoder.md R207). It never fails: it reads no image. -/
def encodeWork (k : Rule) (o : Order) (s : State) : Except OutOfBounds Pending :=
  .ok { result := some (BitVec.ofNat 64 (encodeSamples k o s.band s.argVal ((List.range s.cfgP).map s.sreg))) }

/-- What BANDCMP computes from S[SIDX1] and ARG1.VAL (42_encoder.md R208). -/
def bandcmpWork (s : State) : Except OutOfBounds Pending :=
  .ok { result := some (BitVec.ofNat 64 (bitB s.band (s.sreg s.argSidx1) s.argVal).toNat) }

/-- ENCODE.T.M as a plan (42_encoder.md R207). -/
def planEncodeTM : Plan :=
  { reads := readsP, operandBad := operandCode, work := .component (encodeWork .threshold .msbFirst) }

/-- ENCODE.T.M (42_encoder.md R207). -/
def execEncodeTM (s : State) : Host.Outcome State Fault Refusal := runPlan planEncodeTM s

/-- ENCODE.B.M as a plan (42_encoder.md R207). -/
def planEncodeBM : Plan :=
  { reads := readsPBand, operandBad := operandCode, work := .component (encodeWork .band .msbFirst) }

/-- ENCODE.B.M (42_encoder.md R207). -/
def execEncodeBM (s : State) : Host.Outcome State Fault Refusal := runPlan planEncodeBM s

/-- ENCODE.T.L as a plan (42_encoder.md R207). -/
def planEncodeTL : Plan :=
  { reads := readsP, operandBad := operandCode, work := .component (encodeWork .threshold .lsbFirst) }

/-- ENCODE.T.L (42_encoder.md R207). -/
def execEncodeTL (s : State) : Host.Outcome State Fault Refusal := runPlan planEncodeTL s

/-- ENCODE.B.L as a plan (42_encoder.md R207). -/
def planEncodeBL : Plan :=
  { reads := readsPBand, operandBad := operandCode, work := .component (encodeWork .band .lsbFirst) }

/-- ENCODE.B.L (42_encoder.md R207). -/
def execEncodeBL (s : State) : Host.Outcome State Fault Refusal := runPlan planEncodeBL s

/-- BANDCMP as a plan (42_encoder.md R208). -/
def planBandcmp : Plan :=
  { reads := readsBand, operandBad := operandBandcmp, work := .component bandcmpWork }

/-- BANDCMP (42_encoder.md R208). -/
def execBandcmp (s : State) : Host.Outcome State Fault Refusal := runPlan planBandcmp s

end Sys2Proof.Machine
end

