-- ==== Sys2Proof/Machine/Image.lean ====
section
/-!
DEFINITION. The whole-image commands and NOP: NOP, LBP, RILBP, ULBP, ALBP (43_pipeline.md R236 to R240) and RIPASS
(44_rotation.md R283).
-/
namespace Sys2Proof.Machine

open Sys2Proof

/-- The byte of a pixel in the pass of a variant (43_pipeline.md R235, R237 to R240). -/
def describePass (v : Variant) (m : Mode) : Pass := fun s r col =>
  match describe v m s r col with
  | .ok (code, _) => .ok code
  | .error o => .error o

/-- The byte of a pixel in a rotation-minimization pass: from the cell's own value (43_pipeline.md R238, 44_rotation.md R283). -/
def rotatePass : Pass := fun s r col => .ok (rimin8 (s.descAt r col) s.cfgP)

/-- NOP as a plan (43_pipeline.md R236). -/
def planNop : Plan :=
  { reads := readsNothing, operandBad := operandNone, work := .nothing }

/-- NOP (43_pipeline.md R236). -/
def execNop (s : State) : Host.Outcome State Fault Refusal := runPlan planNop s

/-- LBP.N as a plan (43_pipeline.md R237). -/
def planLbpN : Plan :=
  { reads := readsGeometry, operandBad := operandNone, work := .image true (describePass .lbp .nearest) none }

/-- LBP.N (43_pipeline.md R237). -/
def execLbpN (s : State) : Host.Outcome State Fault Refusal := runPlan planLbpN s

/-- LBP.B as a plan (43_pipeline.md R237). -/
def planLbpB : Plan :=
  { reads := readsGeometry, operandBad := operandNone, work := .image true (describePass .lbp .bilinear) none }

/-- LBP.B (43_pipeline.md R237). -/
def execLbpB (s : State) : Host.Outcome State Fault Refusal := runPlan planLbpB s

/-- RILBP as a plan (43_pipeline.md R238). -/
def planRilbp : Plan :=
  { reads := readsGeometry, operandBad := operandNone, work := .image true (describePass .lbp .bilinear) (some rotatePass) }

/-- RILBP (43_pipeline.md R238). -/
def execRilbp (s : State) : Host.Outcome State Fault Refusal := runPlan planRilbp s

/-- ULBP as a plan (43_pipeline.md R239). -/
def planUlbp : Plan :=
  { reads := readsGeometry, operandBad := operandNone, work := .image true (describePass .ulbp .truncate) none }

/-- ULBP (43_pipeline.md R239). -/
def execUlbp (s : State) : Host.Outcome State Fault Refusal := runPlan planUlbp s

/-- ALBP.N as a plan (43_pipeline.md R240). -/
def planAlbpN : Plan :=
  { reads := readsGeometryBand, operandBad := operandNone, work := .image true (describePass .albp .nearest) none }

/-- ALBP.N (43_pipeline.md R240). -/
def execAlbpN (s : State) : Host.Outcome State Fault Refusal := runPlan planAlbpN s

/-- ALBP.B as a plan (43_pipeline.md R240). -/
def planAlbpB : Plan :=
  { reads := readsGeometryBand, operandBad := operandNone, work := .image true (describePass .albp .bilinear) none }

/-- ALBP.B (43_pipeline.md R240). -/
def execAlbpB (s : State) : Host.Outcome State Fault Refusal := runPlan planAlbpB s

/-- RIPASS as a plan (44_rotation.md R283). -/
def planRipass : Plan :=
  { reads := readsGeometry, operandBad := operandNone, work := .image false rotatePass none }

/-- RIPASS (44_rotation.md R283). -/
def execRipass (s : State) : Host.Outcome State Fault Refusal := runPlan planRipass s

end Sys2Proof.Machine
end

