-- ==== Sys2Proof/Machine/PixelCommands.lean ====
section
/-!
DEFINITION. PIXEL.LBP.N, PIXEL.LBP.B, PIXEL.RILBP, PIXEL.ULBP, PIXEL.ALBP.N and PIXEL.ALBP.B (43_pipeline.md R241).
-/
namespace Sys2Proof.Machine

open Sys2Proof

/-- The writes of samples to S[0..P−1] (43_pipeline.md R241). -/
def numbered (samples : List F64) : List (Nat × Word) := samples.zipIdx.map (fun x => (x.2, x.1))

/-- What PIXEL computes: the code of pixel (ROW, COL) goes to RESULT, its samples to S[0..P−1] (43_pipeline.md R241). -/
def pixelWork (v : Variant) (m : Mode) (s : State) : Except OutOfBounds Pending :=
  match describe v m s s.argRow s.argCol with
  | .ok (code, samples) => .ok { result := some (code.setWidth 64), samples := numbered samples }
  | .error o => .error o

/-- PIXEL.LBP.N as a plan (43_pipeline.md R241). -/
def planPixelLbpN : Plan :=
  { reads := readsGeometry, operandBad := operandPixel, work := .component (pixelWork .lbp .nearest) }

/-- PIXEL.LBP.N (43_pipeline.md R241). -/
def execPixelLbpN (s : State) : Host.Outcome State Fault Refusal := runPlan planPixelLbpN s

/-- PIXEL.LBP.B as a plan (43_pipeline.md R241). -/
def planPixelLbpB : Plan :=
  { reads := readsGeometry, operandBad := operandPixel, work := .component (pixelWork .lbp .bilinear) }

/-- PIXEL.LBP.B (43_pipeline.md R241). -/
def execPixelLbpB (s : State) : Host.Outcome State Fault Refusal := runPlan planPixelLbpB s

/-- PIXEL.RILBP as a plan (43_pipeline.md R241). -/
def planPixelRilbp : Plan :=
  { reads := readsGeometry, operandBad := operandPixel, work := .component (pixelWork .rilbp .bilinear) }

/-- PIXEL.RILBP (43_pipeline.md R241). -/
def execPixelRilbp (s : State) : Host.Outcome State Fault Refusal := runPlan planPixelRilbp s

/-- PIXEL.ULBP as a plan (43_pipeline.md R241). -/
def planPixelUlbp : Plan :=
  { reads := readsGeometry, operandBad := operandPixel, work := .component (pixelWork .ulbp .truncate) }

/-- PIXEL.ULBP (43_pipeline.md R241). -/
def execPixelUlbp (s : State) : Host.Outcome State Fault Refusal := runPlan planPixelUlbp s

/-- PIXEL.ALBP.N as a plan (43_pipeline.md R241). -/
def planPixelAlbpN : Plan :=
  { reads := readsGeometryBand, operandBad := operandPixel, work := .component (pixelWork .albp .nearest) }

/-- PIXEL.ALBP.N (43_pipeline.md R241). -/
def execPixelAlbpN (s : State) : Host.Outcome State Fault Refusal := runPlan planPixelAlbpN s

/-- PIXEL.ALBP.B as a plan (43_pipeline.md R241). -/
def planPixelAlbpB : Plan :=
  { reads := readsGeometryBand, operandBad := operandPixel, work := .component (pixelWork .albp .bilinear) }

/-- PIXEL.ALBP.B (43_pipeline.md R241). -/
def execPixelAlbpB (s : State) : Host.Outcome State Fault Refusal := runPlan planPixelAlbpB s

end Sys2Proof.Machine
end

