-- ==== Sys2Proof/Machine/SampleCommands.lean ====
section
/-!
DEFINITION. SAMPLE.N, SAMPLE.B and SAMPLE.T (41_sampler.md R169).
-/
namespace Sys2Proof.Machine

open Sys2Proof

/-- What SAMPLE computes: the sample goes to S[SIDX] and to RESULT (41_sampler.md R169). -/
def sampleWork (m : Mode) (s : State) : Except OutOfBounds Pending :=
  match sample s m s.argRow s.argCol s.argSidx with
  | .ok v => .ok { result := some v, samples := [(s.argSidx, v)] }
  | .error o => .error o

/-- SAMPLE.N as a plan (41_sampler.md R169). -/
def planSampleN : Plan :=
  { reads := readsGeometry, operandBad := operandSample, work := .component (sampleWork .nearest) }

/-- SAMPLE.N (41_sampler.md R169). -/
def execSampleN (s : State) : Host.Outcome State Fault Refusal := runPlan planSampleN s

/-- SAMPLE.B as a plan (41_sampler.md R169). -/
def planSampleB : Plan :=
  { reads := readsGeometry, operandBad := operandSample, work := .component (sampleWork .bilinear) }

/-- SAMPLE.B (41_sampler.md R169). -/
def execSampleB (s : State) : Host.Outcome State Fault Refusal := runPlan planSampleB s

/-- SAMPLE.T as a plan (41_sampler.md R169). -/
def planSampleT : Plan :=
  { reads := readsGeometry, operandBad := operandSample, work := .component (sampleWork .truncate) }

/-- SAMPLE.T (41_sampler.md R169). -/
def execSampleT (s : State) : Host.Outcome State Fault Refusal := runPlan planSampleT s

end Sys2Proof.Machine
end

