-- ==== Sys2Proof/Machine/Dispatch.lean ====
section
/-!
DEFINITION. exec, one arm for each command. Every arm runs the command in flight from where it is to its completion.
-/
namespace Sys2Proof.Machine

open Sys2Proof

def exec (i : Instr) (s : State) : Host.Outcome State Fault Refusal :=
  match i with
  | .nop => Sys2Proof.Machine.execNop s
  | .lbpN => Sys2Proof.Machine.execLbpN s
  | .lbpB => Sys2Proof.Machine.execLbpB s
  | .rilbp => Sys2Proof.Machine.execRilbp s
  | .ulbp => Sys2Proof.Machine.execUlbp s
  | .albpN => Sys2Proof.Machine.execAlbpN s
  | .albpB => Sys2Proof.Machine.execAlbpB s
  | .ripass => Sys2Proof.Machine.execRipass s
  | .sampleN => Sys2Proof.Machine.execSampleN s
  | .sampleB => Sys2Proof.Machine.execSampleB s
  | .sampleT => Sys2Proof.Machine.execSampleT s
  | .encodeTM => Sys2Proof.Machine.execEncodeTM s
  | .encodeBM => Sys2Proof.Machine.execEncodeBM s
  | .encodeTL => Sys2Proof.Machine.execEncodeTL s
  | .encodeBL => Sys2Proof.Machine.execEncodeBL s
  | .bandcmp => Sys2Proof.Machine.execBandcmp s
  | .rimin => Sys2Proof.Machine.execRimin s
  | .uclass => Sys2Proof.Machine.execUclass s
  | .pixelLbpN => Sys2Proof.Machine.execPixelLbpN s
  | .pixelLbpB => Sys2Proof.Machine.execPixelLbpB s
  | .pixelRilbp => Sys2Proof.Machine.execPixelRilbp s
  | .pixelUlbp => Sys2Proof.Machine.execPixelUlbp s
  | .pixelAlbpN => Sys2Proof.Machine.execPixelAlbpN s
  | .pixelAlbpB => Sys2Proof.Machine.execPixelAlbpB s

end Sys2Proof.Machine
end

