-- ==== Sys2Proof/WellFormed.lean ====
section
/-!
DEFINITION. Which field values an operation takes: "For each OPC, the fields the operation does not use must be zero"
(30_encoding.md R128, R132).
-/
namespace Sys2Proof

/-- SMODE: LBP and ALBP take nearest and bilinear, SAMPLE all three, PIXEL.LBP and PIXEL.ALBP nearest and bilinear, every
other command only zero (30_encoding.md R128, R132; 92_eei_decisions.md D44). -/
def Fields.smodeOk (f : Fields) : Bool :=
  match f.opc, f.smode with
  | _, .nearest => true
  | .sample, _ => true
  | .lbp, .bilinear => true
  | .albp, .bilinear => true
  | .pixel, .bilinear => f.var == .lbp || f.var == .albp
  | _, _ => false

/-- RULE is taken by ENCODE only. -/
def Fields.ruleOk (f : Fields) : Bool := f.rule == .threshold || f.opc == .encode

/-- ORDER is taken by ENCODE only. -/
def Fields.orderOk (f : Fields) : Bool := f.order == .msbFirst || f.opc == .encode

/-- VAR is taken by PIXEL only. -/
def Fields.varOk (f : Fields) : Bool := f.var == .lbp || f.opc == .pixel

/-- The fields are those of a legal command word. -/
def Fields.wf (f : Fields) : Bool := f.smodeOk && f.ruleOk && f.orderOk && f.varOk

/-- A command is well formed when its fields are. -/
def Instr.wf (i : Instr) : Bool := i.fields.wf

end Sys2Proof
end

