-- ==== Sys2Proof/Decode.lean ====
section
/-!
DEFINITION. The command decoder and encoder (30_encoding.md R120 to R128, R132). The decoder is total on 64-bit words and
says by name why a word is illegal; the names are the model's, the completion code is EILLEGAL for all of them (R327).
-/
namespace Sys2Proof

/-- Why a word is no command (30_encoding.md R132). -/
inductive Illegal where
  /-- a set bit in [63:14] (R127) -/
  | reservedBits
  /-- an OPC value outside the table of R122 -/
  | unknownOpc
  /-- SMODE = 0b11 (R123) -/
  | reservedSmode
  /-- an SMODE, RULE, ORDER or VAR value the OPC does not take -/
  | fieldNotTaken
deriving DecidableEq, Repr

/-- OPC [7:0] (30_encoding.md R121). -/
def fieldOpc (w : Word) : Nat := (w.extractLsb' 0 8).toNat

/-- SMODE [9:8]. -/
def fieldSmode (w : Word) : Nat := (w.extractLsb' 8 2).toNat

/-- RULE [10]. -/
def fieldRule (w : Word) : Nat := (w.extractLsb' 10 1).toNat

/-- ORDER [11]. -/
def fieldOrder (w : Word) : Nat := (w.extractLsb' 11 1).toNat

/-- VAR [13:12]. -/
def fieldVar (w : Word) : Nat := (w.extractLsb' 12 2).toNat

/-- RSV [63:14]. -/
def fieldRsv (w : Word) : Nat := (w.extractLsb' 14 50).toNat

/-- The operation of an OPC value (30_encoding.md R122). -/
def opcOf : Nat → Option Opc
  | 0x00 => some .nop
  | 0x01 => some .lbp
  | 0x02 => some .rilbp
  | 0x03 => some .ulbp
  | 0x04 => some .albp
  | 0x05 => some .ripass
  | 0x10 => some .sample
  | 0x11 => some .encode
  | 0x12 => some .bandcmp
  | 0x13 => some .rimin
  | 0x14 => some .uclass
  | 0x18 => some .pixel
  | _ => none

/-- The mode of an SMODE value (30_encoding.md R123). -/
def smodeOf : Nat → Option Mode
  | 0 => some .nearest
  | 1 => some .bilinear
  | 2 => some .truncate
  | _ => none

/-- The rule of a RULE value (30_encoding.md R124). -/
def ruleOf (n : Nat) : Rule := if n = 0 then .threshold else .band

/-- The packing of an ORDER value (30_encoding.md R125). -/
def orderOf (n : Nat) : Order := if n = 0 then .msbFirst else .lsbFirst

/-- The variant of a VAR value (30_encoding.md R126). -/
def varOf : Nat → Variant
  | 0 => .lbp
  | 1 => .rilbp
  | 2 => .ulbp
  | _ => .albp

/-- The command of well-formed fields (the table of 30_encoding.md R128). -/
def instrOf (f : Fields) : Instr :=
  match f.opc with
  | .nop => .nop
  | .lbp => if f.smode = .nearest then .lbpN else .lbpB
  | .rilbp => .rilbp
  | .ulbp => .ulbp
  | .albp => if f.smode = .nearest then .albpN else .albpB
  | .ripass => .ripass
  | .sample =>
    match f.smode with
    | .nearest => .sampleN
    | .bilinear => .sampleB
    | .truncate => .sampleT
  | .encode =>
    match f.rule, f.order with
    | .threshold, .msbFirst => .encodeTM
    | .band, .msbFirst => .encodeBM
    | .threshold, .lsbFirst => .encodeTL
    | .band, .lsbFirst => .encodeBL
  | .bandcmp => .bandcmp
  | .rimin => .rimin
  | .uclass => .uclass
  | .pixel =>
    match f.var with
    | .lbp => if f.smode = .nearest then .pixelLbpN else .pixelLbpB
    | .rilbp => .pixelRilbp
    | .ulbp => .pixelUlbp
    | .albp => if f.smode = .nearest then .pixelAlbpN else .pixelAlbpB

/-- The command a word written to CMD stands for, or why it is illegal (30_encoding.md R128, R132). -/
def decode (w : Word) : Except Illegal Instr :=
  if fieldRsv w ≠ 0 then .error .reservedBits
  else
    match opcOf (fieldOpc w), smodeOf (fieldSmode w) with
    | none, _ => .error .unknownOpc
    | some _, none => .error .reservedSmode
    | some o, some m =>
      let f : Fields :=
        { opc := o, smode := m, rule := ruleOf (fieldRule w), order := orderOf (fieldOrder w), var := varOf (fieldVar w) }
      if f.wf then .ok (instrOf f) else .error .fieldNotTaken

/-- The OPC value of an operation (30_encoding.md R122). -/
def opcValue : Opc → Nat
  | .nop => 0x00
  | .lbp => 0x01
  | .rilbp => 0x02
  | .ulbp => 0x03
  | .albp => 0x04
  | .ripass => 0x05
  | .sample => 0x10
  | .encode => 0x11
  | .bandcmp => 0x12
  | .rimin => 0x13
  | .uclass => 0x14
  | .pixel => 0x18

/-- The SMODE value of a mode (30_encoding.md R123). -/
def smodeValue : Mode → Nat
  | .nearest => 0
  | .bilinear => 1
  | .truncate => 2

/-- The RULE value of a rule (30_encoding.md R124). -/
def ruleValue : Rule → Nat
  | .threshold => 0
  | .band => 1

/-- The ORDER value of a packing (30_encoding.md R125). -/
def orderValue : Order → Nat
  | .msbFirst => 0
  | .lsbFirst => 1

/-- The VAR value of a variant (30_encoding.md R126). -/
def varValue : Variant → Nat
  | .lbp => 0
  | .rilbp => 1
  | .ulbp => 2
  | .albp => 3

/-- The word with given fields and bits [63:14] zero (30_encoding.md R121). -/
def encodeFields (f : Fields) : Word :=
  BitVec.ofNat 64
    (opcValue f.opc + smodeValue f.smode * 2 ^ 8 + ruleValue f.rule * 2 ^ 10 + orderValue f.order * 2 ^ 11
      + varValue f.var * 2 ^ 12)

/-- The word of a command (30_encoding.md R128). -/
def encode (i : Instr) : Word := encodeFields i.fields

/-- The decoder on one row of the opcode table: a command is one 64-bit word, delivered whole (30_encoding.md R120), and the
bits from `nbits` on are 0. -/
def decodeTableWord (nbits w : Nat) : Option Instr :=
  match decode (BitVec.ofNat 64 (w % 2 ^ nbits)) with
  | .ok i => some i
  | .error _ => none

end Sys2Proof
end

