-- ==== Sys2Proof/Machine/Plans.lean ====
section
/-!
DEFINITION. The plan of each command, for single core steps (70_reset_and_hazards.md R385), and of the word in CMD.
-/
namespace Sys2Proof.Machine

open Sys2Proof

/-- The plan each command's meaning runs. -/
def planOf (i : Instr) : Plan :=
  match i with
  | .nop => planNop
  | .lbpN => planLbpN
  | .lbpB => planLbpB
  | .rilbp => planRilbp
  | .ulbp => planUlbp
  | .albpN => planAlbpN
  | .albpB => planAlbpB
  | .ripass => planRipass
  | .sampleN => planSampleN
  | .sampleB => planSampleB
  | .sampleT => planSampleT
  | .encodeTM => planEncodeTM
  | .encodeBM => planEncodeBM
  | .encodeTL => planEncodeTL
  | .encodeBL => planEncodeBL
  | .bandcmp => planBandcmp
  | .rimin => planRimin
  | .uclass => planUclass
  | .pixelLbpN => planPixelLbpN
  | .pixelLbpB => planPixelLbpB
  | .pixelRilbp => planPixelRilbp
  | .pixelUlbp => planPixelUlbp
  | .pixelAlbpN => planPixelAlbpN
  | .pixelAlbpB => planPixelAlbpB

/-- The plan of a command word; a word that is no command has the plan that ends with EILLEGAL (60_exceptions.md R327). -/
def planOfWord (w : Word) : Plan :=
  match decode w with
  | .ok i => planOf i
  | .error _ => illegalPlan

end Sys2Proof.Machine
end

