-- ==== Sys2Proof/Machine/Step.lean ====
section
/-!
DEFINITION. One step of CORE: the next event at its boundary, or, where no event waits, the command in flight to its completion.
-/
namespace Sys2Proof.Machine

open Sys2Proof

/-- The command in flight runs to its completion: the one whose word is in CMD (10_state.md R36). A word that is no command ends
with EILLEGAL (60_exceptions.md R327). Idle, CORE stays as it is (60_exceptions.md R338). -/
def runCommand (s : State) : Host.Outcome State Fault Refusal :=
  if s.flight.phase = .idle then .next s
  else
    match decode s.cmd with
    | .ok i => exec i s
    | .error _ => runPlan illegalPlan s

/-- One step. -/
def step (s : State) : Host.Outcome State Fault Refusal :=
  match s.agenda with
  | [] => runCommand s
  | .run :: rest => runCommand { s with agenda := rest }
  | .core :: rest => .next (coreStep (planOfWord s.cmd) { s with agenda := rest })
  | .access a :: rest => .next (State.access a { s with agenda := rest })
  | .reset :: rest => .next (State.resetPulse { s with agenda := rest })

/-- The state in which a command word has just been issued and no event waits, so that the very next step runs it. It stands for
the host's write of CMD (43_pipeline.md R230, stage 1; log 2). -/
def State.withFetchWord (s : State) (nbits w : Nat) : State :=
  { s.issue (BitVec.ofNat 64 (w % 2 ^ nbits)) with agenda := [] }

end Sys2Proof.Machine
end

