-- ==== Sys2Proof/Machine/HostProgram.lean ====
section
/-!
DEFINITION. The notation of host programs (30_encoding.md R135 to R137): mnemonics, host operations with the bus transaction each
makes, pseudo-instructions with their expansions, and what the host-side operations do on the host. A host program is outside
CORE; it reaches CORE by its transactions only (log 15).
-/
namespace Sys2Proof.Machine

open Sys2Proof

/-- The mnemonic of a command (30_encoding.md R128, R135). -/
def mnemonic : Instr → String
  | .nop => "NOP"
  | .lbpN => "LBP.N"
  | .lbpB => "LBP.B"
  | .rilbp => "RILBP"
  | .ulbp => "ULBP"
  | .albpN => "ALBP.N"
  | .albpB => "ALBP.B"
  | .ripass => "RIPASS"
  | .sampleN => "SAMPLE.N"
  | .sampleB => "SAMPLE.B"
  | .sampleT => "SAMPLE.T"
  | .encodeTM => "ENCODE.T.M"
  | .encodeBM => "ENCODE.B.M"
  | .encodeTL => "ENCODE.T.L"
  | .encodeBL => "ENCODE.B.L"
  | .bandcmp => "BANDCMP"
  | .rimin => "RIMIN"
  | .uclass => "UCLASS"
  | .pixelLbpN => "PIXEL.LBP.N"
  | .pixelLbpB => "PIXEL.LBP.B"
  | .pixelRilbp => "PIXEL.RILBP"
  | .pixelUlbp => "PIXEL.ULBP"
  | .pixelAlbpN => "PIXEL.ALBP.N"
  | .pixelAlbpB => "PIXEL.ALBP.B"

/-- One line of a host program (30_encoding.md R136). -/
inductive HostOp where
  /-- `wr64 <csr>, <imm64>` -/
  | wrCsr (r : Csr) (v : Word)
  /-- `rd64 <csr> -> <name>` -/
  | rdCsr (r : Csr) (name : String)
  /-- `wr8` to `wr64 IMG+<k>` or `DESC+<k>`, by width in bytes -/
  | wrBuf (b : Buffer) (width k : Nat) (v : Word)
  /-- `rd8` to `rd64 IMG+<k>` or `DESC+<k>`, by width in bytes -/
  | rdBuf (b : Buffer) (width k : Nat) (name : String)
  /-- `name:` -/
  | label (name : String)
  /-- `and <name>, <imm>` -/
  | and (name : String) (imm : Word)
  /-- `beq <name>, <imm>, <label>` -/
  | beq (name : String) (imm : Word) (target : String)
  /-- `bne <name>, <imm>, <label>` -/
  | bne (name : String) (imm : Word) (target : String)
deriving DecidableEq, Repr

/-- The offset of a buffer's window (20_memory.md R81). -/
def Buffer.window : Buffer → Nat
  | .img => 0x10000
  | .desc => 0x20000

/-- The offset from CORE_BASE of a buffer operand `IMG+<k>` or `DESC+<k>`: that of the window, and k. DESIGN CHOICE (log 15):
R136 does not say what the operand encodes to where this is at or past the end of CORE's 256 KiB; there it selects no offset of
CORE, as a bus address there selects no CORE (20_memory.md R81). -/
def Buffer.operandOffset (b : Buffer) (k : Nat) : Option Offset := busOffset 0 (b.window + k)

/-- The transaction a host operation makes with CORE (30_encoding.md R136). The operations that run on the host make none, and
neither does a buffer operand outside CORE (DESIGN CHOICE, log 15). -/
def HostOp.transaction : HostOp → Option Access
  | .wrCsr r v => some (.write 8 (BitVec.ofNat 18 r.offset) v)
  | .rdCsr r _ => some (.read 8 (BitVec.ofNat 18 r.offset))
  | .wrBuf b width k v => (b.operandOffset k).map (fun o => .write width o v)
  | .rdBuf b width k _ => (b.operandOffset k).map (fun o => .read width o)
  | .label _ => none
  | .and _ _ => none
  | .beq _ _ _ => none
  | .bne _ _ _ => none

/-- The pseudo-instructions (30_encoding.md R137). `wait` has the name of the loop's label, which the table
writes L in every expansion; each use names its own. -/
inductive Pseudo where
  | cmd (i : Instr)
  | wait (loop name : String)
  | ack
  | cfg (p r : Byte) (ie : Bool)
  | dim (h w : BitVec 16)
  | arg0 (row col : BitVec 16) (sidx : Byte)
  | arg1 (val sidx1 : Byte)
  | band (b : F64)
deriving DecidableEq, Repr

/-- What a pseudo-instruction expands to (30_encoding.md R137). -/
def Pseudo.expand : Pseudo → List HostOp
  | .cmd i => [.wrCsr .cmd (encode i)]
  | .wait l v => [.label l, .rdCsr .status v, .and v 0x3#64, .bne v 0x2#64 l]
  | .ack => [.wrCsr .status 0x2#64]
  | .cfg p r ie =>
    [.wrCsr .ctrl ((BitVec.ofNat 64 ie.toNat <<< 16) ||| (r.setWidth 64 <<< 8) ||| p.setWidth 64)]
  | .dim h w => [.wrCsr .dim ((w.setWidth 64 <<< 16) ||| h.setWidth 64)]
  | .arg0 row col sidx =>
    [.wrCsr .arg0 ((sidx.setWidth 64 <<< 32) ||| (col.setWidth 64 <<< 16) ||| row.setWidth 64)]
  | .arg1 val sidx1 => [.wrCsr .arg1 ((sidx1.setWidth 64 <<< 8) ||| val.setWidth 64)]
  | .band b => [.wrCsr .band b]

/-- A host that runs a program: its place in the program and its variables, the newest value first. -/
structure HostState where
  place : Nat := 0
  vars : List (String × Word) := []
deriving DecidableEq, Repr

/-- The value of a host variable, if it has one. -/
def HostState.get (h : HostState) (name : String) : Option Word :=
  (h.vars.find? (fun x => x.1 == name)).map (fun x => x.2)

/-- The host after it gives a variable a value and goes on to the next line. -/
def HostState.put (name : String) (v : Word) (h : HostState) : HostState :=
  { place := h.place + 1, vars := (name, v) :: h.vars }

/-- The host at the next line. -/
def HostState.next (h : HostState) : HostState := { h with place := h.place + 1 }

/-- The line of a label, if the program has it. DESIGN CHOICE (log 15): R136 and R137 do not say which line is meant where several
carry the same label; it is the first of the program. A program that repeats `wait` gives each its own label (`Pseudo.wait`). -/
def labelPlace (prog : List HostOp) (name : String) : Option Nat :=
  prog.findIdx? (fun op => op == .label name)

/-- The host after a branch that is taken or not. -/
def HostState.branch (prog : List HostOp) (taken : Bool) (target : String) (h : HostState) : Option HostState :=
  if taken then (labelPlace prog target).map (fun n => { h with place := n }) else some h.next

/-- The host after a read is answered: the data goes to the variable; "A refused read returns no data" (20_memory.md R86). -/
def HostState.receive (name : String) (reply : Option Reply) (h : HostState) : HostState :=
  match reply with
  | some (.data v) => h.put name v
  | _ => h.next

/-- One line of a host program, with its effect on CORE (30_encoding.md R136). None where the program is at its end, and, by the
model's choice (DESIGN CHOICE, log 15), where it uses a variable that has no value, branches to a label it does not have, or
reaches with a buffer operand outside CORE. -/
def hostStep (prog : List HostOp) (h : HostState) (s : State) : Option (HostState × State) :=
  match prog[h.place]? with
  | none => none
  | some op =>
    match op.transaction with
    | some a =>
      match op with
      | .rdCsr _ name => some (h.receive name (s.access a).replies.head?, s.access a)
      | .rdBuf _ _ _ name => some (h.receive name (s.access a).replies.head?, s.access a)
      | _ => some (h.next, s.access a)
    | none =>
      match op with
      | .and name imm => (h.get name).map (fun v => (h.put name (v &&& imm), s))
      | .beq name imm target =>
        (h.get name).bind (fun v => (h.branch prog (v == imm) target).map (fun h' => (h', s)))
      | .bne name imm target =>
        (h.get name).bind (fun v => (h.branch prog (v != imm) target).map (fun h' => (h', s)))
      | .label _ => some (h.next, s)
      | .wrCsr _ _ => none
      | .rdCsr _ _ => none
      | .wrBuf _ _ _ _ => none
      | .rdBuf _ _ _ _ => none

end Sys2Proof.Machine
end

