-- ==== Sys2Proof/Safety.lean ====
section
/-!
DEFINITION. What a good state of CORE is, in the terms the statements use: the canonical form of the buffers, the reserved bits,
the status bits and the state of the command in flight (`State.wf`), the place of the scan (`State.scanOk`), the parameters
(`State.paramsOk`), and the configurations a command accepts (`configOk`).
-/
namespace Sys2Proof.Machine

open Sys2Proof

/-- The command whose word is in CMD is a whole-image command. -/
def State.imageCommand (s : State) : Bool :=
  match (planOfWord s.cmd).work with
  | .image _ _ _ => true
  | _ => false

/-- The command whose word is in CMD has a second pass. -/
def State.twoPasses (s : State) : Bool :=
  match (planOfWord s.cmd).work with
  | .image _ _ (some _) => true
  | _ => false

/-- The command in flight is past its checks and has not come to completion. -/
def Phase.executing : Phase → Bool
  | .fill | .pass1 | .pass2 => true
  | .idle | .check | .complete => false

/-- The implementation parameters are within the limits of 00_scope.md R5 and R10. -/
def State.paramsOk (s : State) : Bool :=
  decide (1 ≤ s.maxPix) && decide (s.maxPix ≤ 65536) && s.trig.all (fun e => e.legal)

/-- The buffers are in canonical form and inside MAXPIX (10_state.md R46, R47). -/
def State.memoryOk (s : State) : Bool :=
  s.img.wf && s.desc.wf && s.img.below s.maxPix && s.desc.below s.maxPix

/-- The reserved bits of the registers are 0 (10_state.md R32, R34, R41, R42). -/
def State.reservedOk (s : State) : Bool :=
  s.ctrl &&& ~~~ctrlMask == 0#64 && s.dim &&& ~~~dimMask == 0#64 && s.errinfo.extractLsb' 56 8 == 0#8

/-- The status bits and the command state agree (10_state.md R37, R45, R48; 43_pipeline.md R230): BUSY says that a command is in
flight, BUSY and DONE never hold together, ECODE is 0 while a command is in flight, an idle CORE has nothing pending, only a
command that is about to complete carries a code, and what is pending then is a component command's. -/
def State.statusOk (s : State) : Bool :=
  s.busy == (s.flight.phase != .idle) && !(s.busy && s.done) && (!s.busy || s.ecode == .ok) &&
    (s.flight.phase != .idle || s.flight == {}) &&
    (s.flight.phase == .complete || (s.flight.code == .ok && s.flight.pending == {})) &&
    (!s.imageCommand || s.flight.pending == {}) &&
    (s.flight.code == .ok || s.flight.pending == {})

/-- A whole-image command past its checks has an image that fits the buffers and a legal P and R (60_exceptions.md R322, R323),
and its second pass has the first behind it (20_memory.md R94). -/
def State.geometryOk (s : State) : Bool :=
  (!(s.flight.phase.executing && s.imageCommand) ||
    (decide (s.height * s.width ≤ s.maxPix) && decide (1 ≤ s.cfgP) && decide (s.cfgP ≤ 8) && decide (1 ≤ s.cfgR))) &&
  (s.flight.phase != .pass2 || (s.flight.pass1Done && s.twoPasses))

/-- The invariant of CORE. -/
def State.wf (s : State) : Bool := s.memoryOk && s.reservedOk && s.statusOk && s.geometryOk

/-- The number of interior pixels before (row, col) in row-major order (43_pipeline.md R233). -/
def State.placeIndex (s : State) (row col : Nat) : Nat :=
  (row - s.cfgR) * (s.width - 2 * s.cfgR) + (col - s.cfgR)

/-- The row the scan is on after its last pixel: H − R, or R where the interior is empty (43_pipeline.md R232). -/
def State.endRow (s : State) : Nat := if 2 * s.cfgR < s.width then s.cfgR + (s.height - 2 * s.cfgR) else s.cfgR

/-- (row, col) is an interior pixel or the place after the last one. -/
def State.placeOk (s : State) (row col : Nat) : Bool :=
  s.inInterior row col || (row == s.endRow && col == s.cfgR)

/-- PROGRESS counts the pixel steps done, in row-major order, over both passes (10_state.md R36, R41; 43_pipeline.md R242): while a
whole-image command executes, the cursor is where PROGRESS says. Its largest value is 2·MAXPIX (10_state.md R36). -/
def State.scanOk (s : State) : Bool :=
  decide (s.progress.toNat ≤ 2 * s.maxPix) &&
  if s.imageCommand then
    match s.flight.phase with
    | .check => s.progress == 0#64
    | .fill => s.progress == 0#64 && s.flight.row == s.cfgR && s.flight.col == s.cfgR
    | .pass1 =>
      s.placeOk s.flight.row s.flight.col && s.progress.toNat == s.placeIndex s.flight.row s.flight.col
    | .pass2 =>
      s.placeOk s.flight.row s.flight.col &&
        s.progress.toNat == s.interiorCount + s.placeIndex s.flight.row s.flight.col
    | .idle | .complete => true
  else s.flight.phase == .idle || s.progress == 0#64

/-- A command was issued and has not been checked yet (43_pipeline.md R230, after stage 1). -/
def State.issued (s : State) : Prop := s.flight.phase = .check

/-- Every known angle of the trig parameter has results in [−1, +1] (00_scope.md R10). The others have it always. -/
def State.trigInUnit (s : State) : Bool := s.trig.all (fun e => Config.inUnit e.sin && Config.inUnit e.cos)

/-! The tables of the spec that statements compare the meanings with -/

/-- The words of 30_encoding.md R128, as its table writes them. -/
def opcodeRows : List (Instr × Word) :=
  [ (.nop, 0x0000000000000000#64), (.lbpN, 0x0000000000000001#64), (.lbpB, 0x0000000000000101#64),
    (.rilbp, 0x0000000000000002#64), (.ulbp, 0x0000000000000003#64), (.albpN, 0x0000000000000004#64),
    (.albpB, 0x0000000000000104#64), (.ripass, 0x0000000000000005#64), (.sampleN, 0x0000000000000010#64),
    (.sampleB, 0x0000000000000110#64), (.sampleT, 0x0000000000000210#64), (.encodeTM, 0x0000000000000011#64),
    (.encodeBM, 0x0000000000000411#64), (.encodeTL, 0x0000000000000811#64), (.encodeBL, 0x0000000000000C11#64),
    (.bandcmp, 0x0000000000000012#64), (.rimin, 0x0000000000000013#64), (.uclass, 0x0000000000000014#64),
    (.pixelLbpN, 0x0000000000000018#64), (.pixelLbpB, 0x0000000000000118#64), (.pixelRilbp, 0x0000000000001018#64),
    (.pixelUlbp, 0x0000000000002018#64), (.pixelAlbpN, 0x0000000000003018#64), (.pixelAlbpB, 0x0000000000003118#64) ]

end Sys2Proof.Machine

namespace Sys2Proof

open Sys2Proof.Machine

/-- The commands that read CTRL.P (30_encoding.md R131). -/
def Instr.readsP (i : Instr) : Bool := !decide (i ∈ [Instr.nop, .bandcmp])

/-- The commands that read CTRL.R and DIM (30_encoding.md R131). -/
def Instr.readsImage (i : Instr) : Bool :=
  decide (i ∈ [Instr.lbpN, .lbpB, .rilbp, .ulbp, .albpN, .albpB, .ripass, .sampleN, .sampleB, .sampleT, .pixelLbpN,
    .pixelLbpB, .pixelRilbp, .pixelUlbp, .pixelAlbpN, .pixelAlbpB])

/-- The commands that read B (42_encoder.md R203). -/
def Instr.readsB (i : Instr) : Bool :=
  decide (i ∈ [Instr.albpN, .albpB, .pixelAlbpN, .pixelAlbpB, .encodeBM, .encodeBL, .bandcmp])

/-- A configuration value the command reads is bad (60_exceptions.md R322). -/
def Instr.configBad (i : Instr) (s : State) : Prop :=
  (i.readsP = true ∧ s.cfgP = 0) ∨ (i.readsImage = true ∧ s.cfgR = 0) ∨
    (i.readsB = true ∧ ¬ (isFinite s.band = true ∧ fge s.band Config.zero64 = true)) ∨
    (i.readsImage = true ∧ s.maxPix < s.height * s.width)

/-- P is too wide for the descriptor cell (60_exceptions.md R323). -/
def Instr.widthBad (i : Instr) (s : State) : Prop := i.readsP = true ∧ 9 ≤ s.cfgP

/-- An operand field the command reads is out of range (the table of 60_exceptions.md R324). -/
def Instr.operandFault (i : Instr) (s : State) : Prop :=
  match i with
  | .sampleN | .sampleB | .sampleT => s.arg0.extractLsb' 40 24 ≠ 0#24 ∨ s.cfgP ≤ s.argSidx
  | .pixelLbpN | .pixelLbpB | .pixelRilbp | .pixelUlbp | .pixelAlbpN | .pixelAlbpB => s.arg0.extractLsb' 32 32 ≠ 0#32
  | .encodeTM | .encodeBM | .encodeTL | .encodeBL | .rimin | .uclass => s.arg1.extractLsb' 8 56 ≠ 0#56
  | .bandcmp => s.arg1.extractLsb' 16 48 ≠ 0#48 ∨ 7 < s.argSidx1
  | .nop | .lbpN | .lbpB | .rilbp | .ulbp | .albpN | .albpB | .ripass => False

/-- Every check of a command passes (60_exceptions.md R328). -/
def Instr.accepts (i : Instr) (s : State) : Prop := ¬ i.configBad s ∧ ¬ i.widthBad s ∧ ¬ i.operandFault s

end Sys2Proof

namespace Sys2Proof.Machine

open Sys2Proof

/-- The SAMPLE commands with their modes. -/
def sampleForms : List (Instr × Mode) := [(.sampleN, .nearest), (.sampleB, .bilinear), (.sampleT, .truncate)]

/-- The ENCODE commands with their rules and orders. -/
def encodeForms : List (Instr × Rule × Order) :=
  [(.encodeTM, .threshold, .msbFirst), (.encodeBM, .band, .msbFirst), (.encodeTL, .threshold, .lsbFirst),
   (.encodeBL, .band, .lsbFirst)]

/-- The PIXEL commands with their variants and modes. -/
def pixelForms : List (Instr × Variant × Mode) :=
  [(.pixelLbpN, .lbp, .nearest), (.pixelLbpB, .lbp, .bilinear), (.pixelRilbp, .rilbp, .bilinear),
   (.pixelUlbp, .ulbp, .truncate), (.pixelAlbpN, .albp, .nearest), (.pixelAlbpB, .albp, .bilinear)]

/-- The whole-image commands of one pass with their variants and modes. -/
def imageForms : List (Instr × Variant × Mode) :=
  [(.lbpN, .lbp, .nearest), (.lbpB, .lbp, .bilinear), (.ulbp, .ulbp, .truncate), (.albpN, .albp, .nearest),
   (.albpB, .albp, .bilinear)]

/-- The whole-image commands that zero-fill DESC (43_pipeline.md R234). -/
def fillCommands : List Instr := [.lbpN, .lbpB, .rilbp, .ulbp, .albpN, .albpB]

/-- The commands that are not whole-image commands. -/
def smallCommands : List Instr :=
  [.nop, .sampleN, .sampleB, .sampleT, .encodeTM, .encodeBM, .encodeTL, .encodeBL, .bandcmp, .rimin, .uclass, .pixelLbpN,
   .pixelLbpB, .pixelRilbp, .pixelUlbp, .pixelAlbpN, .pixelAlbpB]

/-- Each PIXEL command with the whole-image command that computes the same codes (43_pipeline.md R241). -/
def pixelTwins : List (Instr × Instr) :=
  [(.pixelLbpN, .lbpN), (.pixelLbpB, .lbpB), (.pixelRilbp, .rilbp), (.pixelUlbp, .ulbp), (.pixelAlbpN, .albpN),
   (.pixelAlbpB, .albpB)]

/-! The rules of the units as sums, counts and least values, for statements about the meanings -/

/-- The rotation of an 8-bit value by k places to the left, in arithmetic (00_scope.md R13). -/
def rotationOf (v : Byte) (k : Nat) : Byte := BitVec.ofNat 8 (v.toNat * 2 ^ k + v.toNat / 2 ^ (8 - k))

/-- `r` is the least of the rotations of `v` by 0 to P−1 places (44_rotation.md R280). -/
def LeastRotation (r v : Byte) (P : Nat) : Prop :=
  (∃ k < P, r = rotationOf v k) ∧ ∀ k < P, r ≤ rotationOf v k

/-- The number of adjacent positions of an 8-bit value that differ, without wrap-around (45_uniformity.md R300). -/
def transitions (v : Byte) : Nat := ((Finset.range 7).filter (fun i => v.getLsbD i ≠ v.getLsbD (i + 1))).card

/-- A uniform code as it is, P + 1 for any other (45_uniformity.md R301). -/
def uniformClass (v : Byte) (P : Nat) : Byte := if transitions v ≤ 2 then v else BitVec.ofNat 8 (P + 1)

/-- The sum a packing stands for (42_encoder.md R204, R205). -/
def codeSum (o : Order) (P : Nat) (bit : Nat → Bool) : Nat :=
  match o with
  | .msbFirst => ∑ p ∈ Finset.range P, (bit p).toNat * 2 ^ (P - 1 - p)
  | .lsbFirst => ∑ p ∈ Finset.range P, (bit p).toNat * 2 ^ p

/-- The comparison bit of a sample (42_encoder.md R200 to R202). -/
def comparisonBit (k : Rule) (b : F64) (cen : Byte) (s : F64) : Bool :=
  match k with
  | .threshold => fge s (f64OfNat cen.toNat)
  | .band =>
    fle (fmul (f64OfNat cen.toNat) (fsub Config.one64 b)) s && fle s (fmul (f64OfNat cen.toNat) (fadd Config.one64 b))

/-- The code of a variant before its post-step (the table of 42_encoder.md R206). -/
def variantSum (v : Variant) (P : Nat) (b : F64) (cen : Byte) (samples : Nat → F64) : Nat :=
  match v with
  | .lbp | .rilbp => codeSum .msbFirst P (fun p => comparisonBit .threshold b cen (samples p))
  | .ulbp => codeSum .lsbFirst P (fun p => comparisonBit .threshold b cen (samples p))
  | .albp => codeSum .msbFirst P (fun p => comparisonBit .band b cen (samples p))

/-- `code` follows from the code before the post-step (the variant table of 30_encoding.md R126). -/
def PostStep (v : Variant) (P : Nat) (before code : Byte) : Prop :=
  match v with
  | .lbp | .albp => code = before
  | .rilbp => LeastRotation code before P
  | .ulbp => code = uniformClass before P

/-- The sampling mode of a variant: bilinear for RI-LBP, truncate for ULBP, the command's for the others (30_encoding.md R126). -/
def modeOf (v : Variant) (m : Mode) : Mode :=
  match v with
  | .lbp | .albp => m
  | .rilbp => .bilinear
  | .ulbp => .truncate

/-- `code` and `samples` are those of `Desc(v, m, r, c)` (43_pipeline.md R235): the centre is in the image, sample p is
`Sample(r, c, p, mode)`, and the code follows from the comparison bits. -/
def IsDescriptor (v : Variant) (m : Mode) (s : State) (r c : Nat) (code : Byte) (samples : List F64) : Prop :=
  s.inImage r c = true ∧ samples.length = s.cfgP ∧
    (∀ p < s.cfgP, sample s (modeOf v m) r c p = .ok (samples.getD p 0#64)) ∧
    PostStep v s.cfgP (BitVec.ofNat 8 (variantSum v s.cfgP s.band (s.imgAt r c) (fun p => samples.getD p 0#64))) code

/-- The coordinates one sample reads, in the order of their tests (41_sampler.md R163, R164, R166). -/
def readPlaces (m : Mode) (x y : F64) : List (Int × Int) :=
  match m with
  | .nearest => [(rndAwayF x, rndAwayF y)]
  | .bilinear => [(floorF x, floorF y), (ceilF x, floorF y), (floorF x, ceilF y), (ceilF x, ceilF y)]
  | .truncate => [(truncF x, truncF y)]

/-- Pixel (r, c) comes before pixel (r', c') in row-major order (43_pipeline.md R233). -/
def earlierPixel (r c r' c' : Nat) : Prop := r < r' ∨ (r = r' ∧ c < c')

/-- The command completed with a code after it wrote DESC, PROGRESS and ERRINFO, and nothing else (43_pipeline.md R243). -/
def OnlyImageWrites (s t : State) : Prop :=
  t = { s with desc := t.desc, progress := t.progress, errinfo := t.errinfo, ecode := t.ecode, busy := false, done := true,
               flight := {} }

/-- The byte of a buffer at an offset. -/
def State.byteOf (s : State) (b : Buffer) (a : Nat) : Byte :=
  match b with
  | .img => s.imgByte a
  | .desc => s.descByte a

/-- The host's write of a command word while CORE is idle, as a state (43_pipeline.md R230, stage 1). -/
def State.given (i : Instr) (s : State) : State := s.issue (encode i)

/-- The state after a command has completed with a code and no other effect than its completion record: ECODE, BUSY = 0, DONE = 1,
nothing in flight (43_pipeline.md R230, stage 4). -/
def State.ended (e : Code) (s : State) : State := { s with ecode := e, busy := false, done := true, flight := {} }

/-- `r` is the exact value `e` rounded once, to nearest with ties to even (00_scope.md R8): no finite value is nearer, and where
another is as near, the significand of `r` is even. -/
def roundsTo (e : ℚ) (r : F64) : Prop :=
  isFinite r = true ∧ ∀ z : F64, isFinite z = true →
    |f64Value r - e| ≤ |f64Value z - e| ∧ (|f64Value r - e| = |f64Value z - e| → f64Value z ≠ f64Value r → mant r % 2 = 0)

/-- Values from here on round to an infinity: half a unit above the largest finite value. -/
def overflowBound : ℚ := (2 - (2 : ℚ) ^ (-53 : ℤ)) * 2 ^ (1023 : ℤ)

end Sys2Proof.Machine
end

