-- ==== Sys2Proof/Certificates/Slice0/Obligations.lean ====
section
/-!
DEFINITION. The statements for the provers. Each says of the model what a rule of the spec says of CORE; OBLIGATIONS.json lists
them with the rules they come from.
-/
section

open Sys2Proof Sys2Proof.Machine
open scoped BigOperators

/-- 30_encoding.md R120, R128. Every command is well formed, so the statement is about all 24. -/
def Obligations.EncodeDecodeRoundTrip : Prop :=
  ∀ i : Instr, i.wf = true ∧ decode (encode i) = .ok i

/-- 30_encoding.md R127, R128, R132 and 60_exceptions.md R327. That nothing else is read or written is said by the equation of
the next state. -/
def Obligations.LegalWordsAreTheTable : Prop :=
  (∀ (w : Word) (i : Instr), decode w = .ok i ↔ (i, w) ∈ opcodeRows) ∧
  (∀ w : Word, w.extractLsb' 14 50 ≠ 0#50 → ∀ i, decode w ≠ .ok i) ∧
  ∀ s : State, s.issued → s.agenda = [] → (∀ i, (i, s.cmd) ∉ opcodeRows) →
    step s = .next { s with ecode := .eillegal, busy := false, done := true, flight := {} } ∧
    hostAccess (.read 8 0x20#18) (s.ended .eillegal) = (s.ended .eillegal, .data s.cmd)

/-- 30_encoding.md R121 to R128. A sanity statement on fixed words. -/
def Obligations.KnownWordsDecode : Prop :=
  decode 0b00_0_0_01_00000001#64 = .ok .lbpB ∧ decode 0b00_0_0_01_00000100#64 = .ok .albpB ∧
  decode 0b00_0_0_10_00010000#64 = .ok .sampleT ∧ decode 0b00_1_1_00_00010001#64 = .ok .encodeBL ∧
  decode 0b01_0_0_00_00011000#64 = .ok .pixelRilbp ∧ decode 0b11_0_0_01_00011000#64 = .ok .pixelAlbpB ∧
  decode 0b00_0_0_11_00010000#64 = .error .reservedSmode ∧ decode 0b00_0_0_00_00000110#64 = .error .unknownOpc ∧
  decode 0b1_00_0_0_00_00010000#64 = .error .reservedBits

/-- 43_pipeline.md R230, 10_state.md R36, 20_memory.md R92. The agenda, the run event and the replies are the model's (logs 1,
2). -/
def Obligations.StepRunsDecodedCommand : Prop :=
  (∀ (s : State) (i : Instr), s.flight.phase ≠ .idle → decode s.cmd = .ok i →
    (s.agenda = [] → step s = exec i s) ∧
    ∀ rest, s.agenda = .run :: rest → step s = exec i { s with agenda := rest }) ∧
  (∀ (s : State) (i : Instr),
    (s.withFetchWord 64 (encode i).toNat) = { s.given i with agenda := [] } ∧
    step (s.withFetchWord 64 (encode i).toNat) = exec i { s.given i with agenda := [] }) ∧
  ∀ (s : State) (a : Access) (rest : List Event), s.agenda = .access a :: rest →
    ∃ t r, hostAccess a { s with agenda := rest } = (t, r) ∧ t.replies = s.replies ∧ t.agenda = rest ∧
      step s = .next { t with replies := r :: s.replies }

/-- 10_state.md R35, with stage 1 of 43_pipeline.md R230. -/
def Obligations.CmdWriteIssues : Prop :=
  (∀ (s : State) (w : Word), s.busy = false →
    hostAccess (.write 8 0x20#18 w) s =
      ({ s with cmd := w, busy := true, done := false, ecode := .ok, progress := 0#64, errinfo := 0#64,
                flight := { phase := .check } }, .accepted)) ∧
  (∀ (s : State) (w : Word), s.busy = true → hostAccess (.write 8 0x20#18 w) s = (s, .busError)) ∧
  (∀ s : State, hostAccess (.read 8 0x20#18) s = (s, .data s.cmd)) ∧
  State.reset.cmd = encode .nop ∧ State.reset.busy = false ∧ State.reset.flight.phase = .idle

/-- 60_exceptions.md R322, R323, R324, R328. Which configuration a command reads is the table of 30_encoding.md R131. -/
def Obligations.ChecksInFixedOrder : Prop :=
  ∀ s : State, s.issued → s.agenda = [] →
    (∀ e, decode s.cmd = .error e → step s = .next (s.ended .eillegal)) ∧
    ∀ i, decode s.cmd = .ok i →
      (i.configBad s → step s = .next (s.ended .econfig)) ∧
      (¬ i.configBad s → i.widthBad s → step s = .next (s.ended .eoverflow)) ∧
      (¬ i.configBad s → ¬ i.widthBad s → i.operandFault s → step s = .next (s.ended .eoperand)) ∧
      (i.accepts s → ∃ t, step s = .next t ∧ t.busy = false ∧ t.done = true ∧ (t.ecode = .ok ∨ t.ecode = .ebounds))

/-- 70_reset_and_hazards.md R385, 43_pipeline.md R230: every issued command reaches stage 4. It holds from every place of the
scan, also from those no run reaches. -/
def Obligations.EveryCommandCompletes : Prop :=
  (∀ s : State, s.flight.phase ≠ .idle →
    ∃ n t, Host.Core.run Sys2Proof.core n ({ s with agenda := List.replicate n .core } : State) = .next t ∧
      t.busy = false ∧ t.done = true ∧ t.flight = {} ∧ t.agenda = []) ∧
  ∀ (i : Instr) (s : State), s.flight.phase ≠ .idle →
    ∃ t, exec i s = .next t ∧ t.busy = false ∧ t.done = true ∧ t.flight = {}

/-- 70_reset_and_hazards.md R385, R386: the final state is the same for every finite number of steps. The replies and the draw
counter are the model's (logs 1 and 9). -/
def Obligations.InterleavingDoesNotMatter : Prop :=
  ∀ (s u : State) (l : List Event),
    (∀ e ∈ l, e = .core ∨ ∃ width offset, e = .access (.read width offset)) →
    step { s with agenda := [.run] } = .next u →
    ∃ t, Host.Core.run Sys2Proof.core (l.length + 1) ({ s with agenda := l ++ [.run] } : State) = .next t ∧
      t = { u with replies := t.replies, draws := t.draws }

/-- 10_state.md R40, R43; 20_memory.md R87; 70_reset_and_hazards.md R370, R377. The premise s.wf rules out states in which a
whole-image command has something pending. The events and the run step are the model's (logs 1 and 2). -/
def Obligations.ResultsOnlyAtCompletion : Prop :=
  (∀ s t : State, s.wf = true → step s = .next t → t.result ≠ s.result ∨ t.sregs ≠ s.sregs →
    ((∃ rest, s.agenda = .core :: rest) ∧ s.flight.phase = .complete ∧ s.flight.code = .ok ∧
      s.busy = true ∧ s.imageCommand = false ∧ t.ecode = .ok ∧ t.busy = false ∧ t.done = true) ∨
    ((s.agenda = [] ∨ ∃ rest, s.agenda = .run :: rest) ∧
      s.busy = true ∧ s.imageCommand = false ∧ t.ecode = .ok ∧ t.busy = false ∧ t.done = true) ∨
    (∃ (p : Fin 8) (v : Word) (rest : List Event),
      s.agenda = .access (.write 8 (BitVec.ofNat 18 (0x080 + 8 * p.val)) v) :: rest ∧
      s.busy = false ∧ t.result = s.result ∧ t.sregs = s.sregs.set p.val v) ∨
    (∃ rest, s.agenda = .reset :: rest) ∧ t.result = 0#64 ∧ ∀ p, t.sreg p = 0#64) ∧
  ∀ (s : State) (a : Access),
    (hostAccess a s).1.result = s.result ∧
    ((hostAccess a s).1.sregs ≠ s.sregs → s.busy = false ∧
      ∃ (p : Fin 8) (v : Word), a = .write 8 (BitVec.ofNat 18 (0x080 + 8 * p.val)) v ∧
        (hostAccess a s).1.sregs = s.sregs.set p.val v)

/-- 43_pipeline.md R236. -/
def Obligations.NopCompletes : Prop :=
  (∀ s : State, s.issued → exec .nop s = .next { s with ecode := .ok, busy := false, done := true, flight := {} }) ∧
  (∀ s : State, exec .nop (s.given .nop) =
    .next { s with cmd := 0#64, progress := 0#64, errinfo := 0#64, ecode := .ok, busy := false, done := true, flight := {} }) ∧
  decode 0#64 = .ok .nop ∧
  ∀ w : Word, w.extractLsb' 0 8 = 0#8 → w ≠ 0#64 → ∀ i, decode w ≠ .ok i

/-- 41_sampler.md R160, R161, R163, R164, R166, R167, R168, with the blend of R165. -/
def Obligations.SampleReadsItsPlaces : Prop :=
  (∀ (s : State) (m : Mode) (r c p : Nat),
    let θ := fdiv (fmul (fmul Config.two64 Config.pi64) (f64OfNat p)) (f64OfNat s.cfgP)
    let x := fadd (f64OfNat r) (fmul (f64OfNat s.cfgR) (s.sinF θ))
    let y := fadd (f64OfNat c) (fmul (f64OfNat s.cfgR) (s.cosF θ))
    let img := fun a b : Int => f64OfNat (s.imgByte (a.toNat * s.width + b.toNat)).toNat
    let wx := fsub x (f64OfInt (floorF x))
    let wy := fsub y (f64OfInt (floorF y))
    let top := fadd (fmul (fsub Config.one64 wx) (img (floorF x) (floorF y))) (fmul wx (img (ceilF x) (floorF y)))
    let bottom := fadd (fmul (fsub Config.one64 wx) (img (floorF x) (ceilF y))) (fmul wx (img (ceilF x) (ceilF y)))
    (∀ q, (readPlaces m x y).find? (fun q => !s.inImage q.1 q.2) = some q → sample s m r c p = .error ⟨q.1, q.2, p⟩) ∧
    ((readPlaces m x y).find? (fun q => !s.inImage q.1 q.2) = none →
      sample s m r c p = .ok (match m with
        | .nearest => img (rndAwayF x) (rndAwayF y)
        | .truncate => img (truncF x) (truncF y)
        | .bilinear => fadd (fmul (fsub Config.one64 wy) top) (fmul wy bottom)))) ∧
  ∀ (s t : State) (m : Mode) (r c p : Nat),
    t.ctrl = s.ctrl → t.dim = s.dim → t.img = s.img → t.epoch = s.epoch → t.trig = s.trig →
      sample t m r c p = sample s m r c p

/-- 41_sampler.md R169. The whole next state is stated, so everything else is unchanged. -/
def Obligations.SampleCommandResult : Prop :=
  ∀ (i : Instr) (m : Mode) (s : State), (i, m) ∈ sampleForms → s.issued → i.accepts s →
    (∀ v, sample s m s.argRow s.argCol s.argSidx = .ok v →
      exec i s =
        .next (({ s with result := v, sregs := s.sregs.setIfInBounds s.argSidx v } : State).ended .ok)) ∧
    ∀ o, sample s m s.argRow s.argCol s.argSidx = .error o →
      exec i s = .next (({ s with errinfo := o.info } : State).ended .ebounds)

/-- 42_encoder.md R207, R200, R202, R204, R205. The whole next state is stated. -/
def Obligations.EncodeCommandResult : Prop :=
  ∀ (i : Instr) (k : Rule) (o : Order) (s : State), (i, k, o) ∈ encodeForms → s.issued → i.accepts s →
    exec i s =
      .next (({ s with
        result := BitVec.ofNat 64 (codeSum o s.cfgP (fun p => comparisonBit k s.band s.argVal (s.sreg p))) } :
          State).ended .ok)

/-- 42_encoder.md R201, R202, R208. The whole next state is stated. -/
def Obligations.BandcmpResult : Prop :=
  ∀ s : State, s.issued → Instr.bandcmp.accepts s →
    exec .bandcmp s =
      .next (({ s with
        result := if comparisonBit .band s.band s.argVal (s.sreg s.argSidx1) = true then 1#64 else 0#64 } :
          State).ended .ok)

/-- 44_rotation.md R280, R282. The whole next state is stated. -/
def Obligations.RiminResult : Prop :=
  ∀ s : State, s.issued → Instr.rimin.accepts s →
    ∃ r : Byte, LeastRotation r s.argVal s.cfgP ∧
      exec .rimin s = .next (({ s with result := r.setWidth 64 } : State).ended .ok)

/-- 45_uniformity.md R300, R301, R302. The whole next state is stated. -/
def Obligations.UclassResult : Prop :=
  ∀ s : State, s.issued → Instr.uclass.accepts s →
    exec .uclass s =
      .next (({ s with result := (uniformClass s.argVal s.cfgP).setWidth 64 } : State).ended .ok)

/-- 43_pipeline.md R235, with the variant table of 30_encoding.md R126. -/
def Obligations.PixelDescriptor : Prop :=
  ∀ (v : Variant) (m : Mode) (s : State) (r c : Nat), 1 ≤ s.cfgP → s.cfgP ≤ 8 →
    (∀ code samples, describe v m s r c = .ok (code, samples) ↔ IsDescriptor v m s r c code samples) ∧
    (∀ o, describe v m s r c = .error o ↔
      (s.inImage r c = false ∧ o = ⟨r, c, 0xFF⟩) ∨
      (s.inImage r c = true ∧ ∃ p < s.cfgP, sample s (modeOf v m) r c p = .error o ∧
        ∀ q < p, ∃ x, sample s (modeOf v m) r c q = .ok x)) ∧
    ∀ t : State, t.ctrl = s.ctrl → t.band = s.band → t.dim = s.dim → t.img = s.img → t.epoch = s.epoch → t.trig = s.trig →
      describe v m t r c = describe v m s r c

/-- 60_exceptions.md R326. That no byte is read for the failing test is said by the independence of IMG. -/
def Obligations.FirstFailingTest : Prop :=
  (∀ o : OutOfBounds,
    o.info.extractLsb' 0 24 = BitVec.ofInt 24 o.row ∧ o.info.extractLsb' 24 24 = BitVec.ofInt 24 o.col ∧
    o.info.extractLsb' 48 8 = BitVec.ofNat 8 o.index ∧ o.info.extractLsb' 56 8 = 0#8) ∧
  (∀ (i : Instr) (v : Variant) (m : Mode) (s : State), (i, v, m) ∈ pixelForms → s.issued → i.accepts s →
    (s.inImage s.argRow s.argCol = false →
      exec i s = .next (({ s with errinfo := OutOfBounds.info ⟨s.argRow, s.argCol, 0xFF⟩ } : State).ended .ebounds)) ∧
    ∀ p o, s.inImage s.argRow s.argCol = true → p < s.cfgP →
      sample s (modeOf v m) s.argRow s.argCol p = .error o →
      (∀ q < p, ∃ x, sample s (modeOf v m) s.argRow s.argCol q = .ok x) →
      exec i s = .next (({ s with errinfo := o.info } : State).ended .ebounds)) ∧
  (∀ (i : Instr) (m : Mode) (s : State) (o : OutOfBounds), (i, m) ∈ sampleForms → s.issued → i.accepts s →
    sample s m s.argRow s.argCol s.argSidx = .error o →
    exec i s = .next (({ s with errinfo := o.info } : State).ended .ebounds)) ∧
  (∀ (s : State) (r c p : Nat) (o : OutOfBounds), sample s .bilinear r c p = .error o →
    ∃ x y, x = sampleX s r p ∧ y = sampleY s c p ∧
      (readPlaces .bilinear x y).find? (fun q => !s.inImage q.1 q.2) = some (o.row, o.col) ∧ o.index = p) ∧
  ∀ (s : State) (m : Mode) (r c p : Nat) (o : OutOfBounds) (other : Memory),
    sample s m r c p = .error o → sample { s with img := other } m r c p = .error o

/-- 43_pipeline.md R241. The whole next state is stated. -/
def Obligations.PixelCommandResult : Prop :=
  ∀ (i : Instr) (v : Variant) (m : Mode) (s : State), (i, v, m) ∈ pixelForms → s.issued → i.accepts s →
    (∀ code samples, IsDescriptor v m s s.argRow s.argCol code samples →
      exec i s =
        .next (({ s with
          result := code.setWidth 64
          sregs := Vector.ofFn (fun p : Fin 8 => if p.val < s.cfgP then samples.getD p.val 0#64 else s.sreg p.val) } :
            State).ended .ok)) ∧
    ∀ o, describe v m s s.argRow s.argCol = .error o →
      exec i s = .next (({ s with errinfo := o.info } : State).ended .ebounds)

/-- 42_encoder.md R204, R205, R206, R209. -/
def Obligations.PackingOrders : Prop :=
  (∀ bits : List Bool,
    packM bits = ∑ p ∈ Finset.range bits.length, (bits.getD p false).toNat * 2 ^ (bits.length - 1 - p) ∧
    packL bits = ∑ p ∈ Finset.range bits.length, (bits.getD p false).toNat * 2 ^ p ∧
    packM bits < 2 ^ bits.length ∧ packL bits < 2 ^ bits.length ∧
    ∀ j < bits.length, (packM bits).testBit j = (packL bits).testBit (bits.length - 1 - j)) ∧
  (∀ bits, packBits .msbFirst bits = packM bits ∧ packBits .lsbFirst bits = packL bits) ∧
  (variantOrder .lbp, variantRule .lbp) = (.msbFirst, .threshold) ∧
  (variantOrder .rilbp, variantRule .rilbp) = (.msbFirst, .threshold) ∧
  (variantOrder .ulbp, variantRule .ulbp) = (.lsbFirst, .threshold) ∧
  (variantOrder .albp, variantRule .albp) = (.msbFirst, .band)

/-- 42_encoder.md R200. -/
def Obligations.ThresholdRule : Prop :=
  (∀ (s : F64) (cen : Byte), bitT s cen = fge s (f64OfNat cen.toNat)) ∧
  (∀ (s : F64) (cen : Byte), isFinite s = true → (bitT s cen = true ↔ (cen.toNat : ℚ) ≤ f64Value s)) ∧
  (∀ (s : F64) (cen : Byte), isNaN s = true → bitT s cen = false) ∧
  ∀ cen : Byte, bitT 0xFFF0000000000000#64 cen = false ∧ bitT 0x7FF0000000000000#64 cen = true ∧
    bitT (f64OfNat cen.toNat) cen = true ∧ bitT 0#64 0#8 = true ∧ bitT 0x8000000000000000#64 0#8 = true

/-- 42_encoder.md R201, R202, and R203 for B = −0.0. -/
def Obligations.BandRule : Prop :=
  (∀ (b s : F64) (cen : Byte),
    bitB b s cen = (fle (fmul (f64OfNat cen.toNat) (fsub Config.one64 b)) s &&
      fle s (fmul (f64OfNat cen.toNat) (fadd Config.one64 b)))) ∧
  (∀ b s : F64, bandLegal b = true → (bitB b s 0#8 = true ↔ s = 0#64 ∨ s = 0x8000000000000000#64)) ∧
  (∀ (s : F64) (cen : Byte),
    (bitB 0#64 s cen = true ↔ isFinite s = true ∧ f64Value s = cen.toNat) ∧
    (bitB 0x8000000000000000#64 s cen = true ↔ isFinite s = true ∧ f64Value s = cen.toNat)) ∧
  (∀ (b s : F64) (cen : Byte), isNaN s = true → bitB b s cen = false) ∧
  ∀ (b : F64) (cen : Byte), bandLegal b = true → fle b Config.one64 = false →
    (cen ≠ 0#8 → isNeg (bandLower b cen) = true) ∧
    ∀ s : F64, isFinite s = true → isNeg s = false → fle (bandLower b cen) s = true

/-- 44_rotation.md R280; rotl8 is that of 00_scope.md R13. -/
def Obligations.RotationMinimum : Prop :=
  (∀ (v : Byte) (P : Nat), 1 ≤ P → P ≤ 8 → LeastRotation (rimin8 v P) v P ∧ rimin8 v P ≤ v) ∧
  (∀ (v : Byte) (k : Nat), k < 8 → rotl8 v k = rotationOf v k) ∧
  (rimin8 0x08#8 4 = 8#8 ∧ rotationOf 0x08#8 (8 - 3) = 1#8) ∧
  ∀ v : Byte, (∃ k < 8, rimin8 v 8 = rotationOf v (8 - k)) ∧ ∀ k < 8, rimin8 v 8 ≤ rotationOf v (8 - k)

/-- 44_rotation.md R284, by enumeration, as the spec did. -/
def Obligations.RotationProperties : Prop :=
  (∀ v : Byte, ∀ j < 8, rimin8 (rotl8 v j) 8 = rimin8 v 8) ∧
  (∀ P ∈ [1, 2, 3, 4, 5, 8], ∀ v : Byte, v.toNat < 2 ^ P → rimin8 (rimin8 v P) P = rimin8 v P) ∧
  (rimin8 36#8 6 = 33#8 ∧ rimin8 33#8 6 = 9#8 ∧ rimin8 50#8 7 = 35#8 ∧ rimin8 35#8 7 = 25#8) ∧
  (∀ P ∈ [2, 3, 4, 5, 6, 7], ∃ v : Byte, rimin8 (rimin8 v P) P ≠ rimin8 v P) ∧
  rimin8 0x03#8 4 = 3#8 ∧ rimin8 0x06#8 4 = 6#8

/-- 45_uniformity.md R300, R301, R303. -/
def Obligations.UniformityClassification : Prop :=
  (∀ v : Byte, tr8 v = transitions v ∧ tr8 v ≤ 7 ∧ ∀ P ∈ [1, 2, 3, 4, 5, 6, 7, 8],
    ucls8 v P = (if transitions v ≤ 2 then v else BitVec.ofNat 8 (P + 1)) ∧ (BitVec.ofNat 8 (P + 1)).toNat = P + 1) ∧
  ((List.range 256).filter (fun n => decide (tr8 (BitVec.ofNat 8 n) ≤ 2))).length = 58 ∧
  ∀ v : Byte,
    (tr8 v + (v.getLsbD 0 ^^ v.getLsbD 7).toNat) % 2 = 0 ∧
    (tr8 v = 0 → tr8 v + (v.getLsbD 0 ^^ v.getLsbD 7).toNat = 0) ∧
    (tr8 v = 1 → tr8 v + (v.getLsbD 0 ^^ v.getLsbD 7).toNat = 2) ∧
    (tr8 v = 2 → tr8 v + (v.getLsbD 0 ^^ v.getLsbD 7).toNat = 2) ∧
    (tr8 v ≤ 2 ↔ tr8 v + (v.getLsbD 0 ^^ v.getLsbD 7).toNat ≤ 2)

/-- 00_scope.md R9. -/
def Obligations.RoundingFunctionsAreExact : Prop :=
  ∀ x : F64, isFinite x = true →
    floorF x = ⌊f64Value x⌋ ∧ ceilF x = ⌈f64Value x⌉ ∧
    truncF x = (if 0 ≤ f64Value x then ⌊f64Value x⌋ else ⌈f64Value x⌉) ∧
    (∀ n : ℤ, |f64Value x - rndAwayF x| ≤ |f64Value x - n| ∧
      (|f64Value x - rndAwayF x| = |f64Value x - n| → |n| ≤ |rndAwayF x|))

/-- 00_scope.md R7, R8. -/
def Obligations.IntegersAndComparisonsAreExact : Prop :=
  (∀ n : ℤ, |n| ≤ 2 ^ 53 → isFinite (f64OfInt n) = true ∧ f64Value (f64OfInt n) = n) ∧
  (∀ a b : F64, isFinite a = true → isFinite b = true →
    (fle a b = true ↔ f64Value a ≤ f64Value b) ∧ (fge a b = true ↔ f64Value b ≤ f64Value a)) ∧
  ∀ a b : F64, isNaN a = true ∨ isNaN b = true → fle a b = false ∧ fge a b = false

/-- 00_scope.md R8: every operation rounds its exact result once, to nearest with ties to even. It is about values: the sign of
a zero result is not stated. -/
def Obligations.SumsAndProductsAreRounded : Prop :=
  ∀ a b : F64, isFinite a = true → isFinite b = true →
    ∀ p ∈ [(f64Value a + f64Value b, fadd a b), (f64Value a - f64Value b, fsub a b), (f64Value a * f64Value b, fmul a b)],
      (|p.1| < overflowBound → roundsTo p.1 p.2) ∧
      (overflowBound ≤ |p.1| → p.2 = if p.1 < 0 then 0xFFF0000000000000#64 else 0x7FF0000000000000#64)

/-- 00_scope.md R8, for division. It is about values: the sign of a zero quotient is not stated. -/
def Obligations.QuotientsAreRounded : Prop :=
  ∀ a b : F64, isFinite a = true → isFinite b = true → f64Value b ≠ 0 →
    (|f64Value a / f64Value b| < overflowBound → roundsTo (f64Value a / f64Value b) (fdiv a b)) ∧
    (overflowBound ≤ |f64Value a / f64Value b| →
      fdiv a b = if f64Value a / f64Value b < 0 then 0xFFF0000000000000#64 else 0x7FF0000000000000#64)

/-- 41_sampler.md R162, R160. -/
def Obligations.ReferenceTrigValues : Prop :=
  ∀ s : State, s.trig = Config.trigTable →
    ((List.range 8).map (fun p => (theta 8 p, s.sinF (theta 8 p), s.cosF (theta 8 p))) =
      [(0x0000000000000000#64, 0x0000000000000000#64, 0x3FF0000000000000#64),
       (0x3FE921FB54442D18#64, 0x3FE6A09E667F3BCC#64, 0x3FE6A09E667F3BCD#64),
       (0x3FF921FB54442D18#64, 0x3FF0000000000000#64, 0x3C91A62633145C07#64),
       (0x4002D97C7F3321D2#64, 0x3FE6A09E667F3BCD#64, 0xBFE6A09E667F3BCC#64),
       (0x400921FB54442D18#64, 0x3CA1A62633145C07#64, 0xBFF0000000000000#64),
       (0x400F6A7A2955385E#64, 0xBFE6A09E667F3BCC#64, 0xBFE6A09E667F3BCE#64),
       (0x4012D97C7F3321D2#64, 0xBFF0000000000000#64, 0xBCAA79394C9E8A0A#64),
       (0x4015FDBBE9BBA775#64, 0xBFE6A09E667F3BCE#64, 0x3FE6A09E667F3BCB#64)]) ∧
    (List.range 4).map (fun p => (theta 4 p, s.sinF (theta 4 p), s.cosF (theta 4 p))) =
      [(0x0000000000000000#64, 0x0000000000000000#64, 0x3FF0000000000000#64),
       (0x3FF921FB54442D18#64, 0x3FF0000000000000#64, 0x3C91A62633145C07#64),
       (0x400921FB54442D18#64, 0x3CA1A62633145C07#64, 0xBFF0000000000000#64),
       (0x4012D97C7F3321D2#64, 0xBFF0000000000000#64, 0xBCAA79394C9E8A0A#64)]

/-- 41_sampler.md R170, R161. The clause on sample 0 is the model's choice: that sinF(+0.0) is +0.0 and cosF(+0.0) is 1.0 for
every trig parameter is read from R161, R169 and R170 (log 5, DEDUCED, unsafe), while 00_scope.md R10 alone leaves both open. -/
def Obligations.BilinearAtIntegerPoint : Prop :=
  (∀ (s : State) (r c p : Nat), s.inImage r c = true →
    sampleMode s .bilinear (f64OfNat r) (f64OfNat c) p = .ok (f64OfNat (s.imgAt r c).toNat)) ∧
  (∀ (s : State) (r c : Nat), s.paramsOk = true → s.cfgP = 8 → r ≤ 65535 → c ≤ 65535 →
    sampleX s r 0 = f64OfNat r ∧ sampleY s c 0 = f64OfNat (c + s.cfgR)) ∧
  ∀ s : State, s.trig = Config.trigTable → s.cfgP = 8 → s.cfgR = 1 →
    floorF (sampleY s 0 2) ≠ ceilF (sampleY s 0 2) ∧ floorF (sampleX s 0 4) ≠ ceilF (sampleX s 0 4) ∧
    floorF (sampleY s 0 6) ≠ ceilF (sampleY s 0 6)

/-- 00_scope.md R10 and the bound of 41_sampler.md R161. The angles that are not listed are covered by the limits of Config.sinF
and Config.cosF (log 4). -/
def Obligations.SampleCoordinatesStayInReach : Prop :=
  ∀ (s : State) (r c p : Nat), s.trigInUnit = true → r ≤ 65535 → c ≤ 65535 →
    (∀ θ : F64, isFinite (s.sinF θ) = true ∧ |f64Value (s.sinF θ)| ≤ 1 ∧
      isFinite (s.cosF θ) = true ∧ |f64Value (s.cosF θ)| ≤ 1) ∧
    isFinite (sampleX s r p) = true ∧ |f64Value (sampleX s r p) - r| ≤ s.cfgR ∧
    isFinite (sampleY s c p) = true ∧ |f64Value (sampleY s c p) - c| ≤ s.cfgR

/-- 43_pipeline.md R234, R237, R239, R240, R242, R243. What a descriptor is says PixelDescriptor; that interior pixels always
have one says WholeImageNeverRaisesBounds. -/
def Obligations.WholeImageCommandResult : Prop :=
  ∀ (i : Instr) (v : Variant) (m : Mode) (s : State), (i, v, m) ∈ imageForms → s.issued → i.accepts s →
    (∀ r c, s.inInterior r c = true → ∃ d, describe v m s r c = .ok d) →
    ∃ t, exec i s = .next t ∧ OnlyImageWrites s t ∧ t.ecode = .ok ∧ t.errinfo = s.errinfo ∧
      t.progress = s.progress + BitVec.ofNat 64 s.interiorCount ∧
      (∀ r c, s.inInterior r c = true → ∃ samples, describe v m s r c = .ok (t.descAt r c, samples)) ∧
      (∀ r c, r < s.height → c < s.width → s.inInterior r c = false → t.descAt r c = 0#8) ∧
      ∀ a, s.height * s.width ≤ a → t.descByte a = s.descByte a

/-- 43_pipeline.md R238, R242, and its corner case that each final cell equals the code of Desc(RILBP, -, r, c). -/
def Obligations.RilbpCommandResult : Prop :=
  ∀ s : State, s.issued → Instr.rilbp.accepts s →
    (∀ r c, s.inInterior r c = true → ∃ d, describe .lbp .bilinear s r c = .ok d) →
    ∃ t, exec .rilbp s = .next t ∧ OnlyImageWrites s t ∧ t.ecode = .ok ∧ t.errinfo = s.errinfo ∧
      t.progress = s.progress + BitVec.ofNat 64 (2 * s.interiorCount) ∧
      (∀ r c m, s.inInterior r c = true → ∃ samples, describe .rilbp m s r c = .ok (t.descAt r c, samples)) ∧
      (∀ r c, r < s.height → c < s.width → s.inInterior r c = false → t.descAt r c = 0#8) ∧
      ∀ a, s.height * s.width ≤ a → t.descByte a = s.descByte a

/-- 44_rotation.md R283, R280; 43_pipeline.md R242. RIPASS reads no IMG, so it has no condition on the trig parameter. -/
def Obligations.RipassCommandResult : Prop :=
  ∀ s : State, s.issued → Instr.ripass.accepts s →
    ∃ t, exec .ripass s = .next t ∧ OnlyImageWrites s t ∧ t.ecode = .ok ∧ t.errinfo = s.errinfo ∧
      t.progress = s.progress + BitVec.ofNat 64 s.interiorCount ∧
      (∀ r c, s.inInterior r c = true → LeastRotation (t.descAt r c) (s.descAt r c) s.cfgP) ∧
      ∀ a, (∀ r c, s.inInterior r c = true → a ≠ r * s.width + c) → t.descByte a = s.descByte a

/-- 43_pipeline.md R246. The angles that are not listed are covered by the limits of Config.sinF and Config.cosF (log 4). -/
def Obligations.WholeImageNeverRaisesBounds : Prop :=
  ∀ (i : Instr) (s : State), i ∈ [Instr.lbpN, .lbpB, .rilbp, .ulbp, .albpN, .albpB, .ripass] → s.issued → i.accepts s →
    s.trigInUnit = true → ∃ t, exec i s = .next t ∧ t.ecode = .ok ∧ t.busy = false ∧ t.done = true

/-- 43_pipeline.md R247. For RILBP this is in its first pass. Which failing pixel ends the command and which cells are done
follow the order of the pixels: it is the row-major order of R233, which 20_memory.md R93 lets a model use and lets a CORE
depart from. That this order is taken is the model's choice (log 11, DESIGN CHOICE). -/
def Obligations.WholeImageBoundsError : Prop :=
  ∀ (i : Instr) (v : Variant) (m : Mode) (s : State) (r₀ c₀ : Nat) (o : OutOfBounds),
    (i, v, m) ∈ imageForms ++ [(.rilbp, .lbp, .bilinear)] → s.issued → i.accepts s →
    s.inInterior r₀ c₀ = true → describe v m s r₀ c₀ = .error o →
    (∀ r c, s.inInterior r c = true → earlierPixel r c r₀ c₀ → ∃ d, describe v m s r c = .ok d) →
    ∃ t, exec i s = .next t ∧ OnlyImageWrites s t ∧ t.ecode = .ebounds ∧ t.errinfo = o.info ∧
      t.progress = s.progress + BitVec.ofNat 64 (s.placeIndex r₀ c₀) ∧
      (∀ r c, s.inInterior r c = true → earlierPixel r c r₀ c₀ →
        ∃ samples, describe v m s r c = .ok (t.descAt r c, samples)) ∧
      (∀ r c, r < s.height → c < s.width → ¬ (s.inInterior r c = true ∧ earlierPixel r c r₀ c₀) → t.descAt r c = 0#8) ∧
      ∀ a, s.height * s.width ≤ a → t.descByte a = s.descByte a

/-- 43_pipeline.md R244. -/
def Obligations.BorderCellsAreZero : Prop :=
  ∀ (i : Instr) (s t : State), i ∈ fillCommands → s.issued → exec i s = .next t → t.ecode = .ok →
    ∀ r c, r < s.height → c < s.width →
      r < s.cfgR ∨ s.height ≤ r + s.cfgR ∨ c < s.cfgR ∨ s.width ≤ c + s.cfgR → t.descAt r c = 0#8

/-- 43_pipeline.md R243. -/
def Obligations.WholeImageWritesNoResult : Prop :=
  ∀ (i : Instr) (s : State), i ∈ [Instr.lbpN, .lbpB, .rilbp, .ulbp, .albpN, .albpB, .ripass] → s.issued →
    ∃ t, exec i s = .next t ∧ OnlyImageWrites s t ∧ t.result = s.result ∧ t.sregs = s.sregs ∧ t.img = s.img

/-- 44_rotation.md R283 (its last sentence), 70_reset_and_hazards.md R381. -/
def Obligations.TwoStepEqualsRilbp : Prop :=
  ∀ s t u w : State,
    exec .lbpB (s.given .lbpB) = .next t → t.ecode = .ok → exec .ripass (t.given .ripass) = .next u →
    exec .rilbp (s.given .rilbp) = .next w →
      u.ecode = .ok ∧ w.ecode = .ok ∧ (∀ a, u.descByte a = w.descByte a) ∧
      u.progress = BitVec.ofNat 64 s.interiorCount ∧ w.progress = BitVec.ofNat 64 (2 * s.interiorCount)

/-- 43_pipeline.md R245, for the commands it covers (not RIPASS). -/
def Obligations.ZeroFillingCommandsAreIdempotent : Prop :=
  ∀ (i : Instr) (s t u : State), i ∈ fillCommands →
    exec i (s.given i) = .next t → exec i (t.given i) = .next u →
      (∀ a, a < s.height * s.width → u.descByte a = t.descByte a) ∧
      u.progress = t.progress ∧ u.ecode = t.ecode ∧ u.errinfo = t.errinfo

/-- 43_pipeline.md R241, first corner case. -/
def Obligations.PixelMatchesWholeImage : Prop :=
  ∀ (i j : Instr) (s t : State) (r c : Nat), (i, j) ∈ pixelTwins →
    exec j (s.given j) = .next t → t.ecode = .ok → s.inInterior r c = true →
    s.arg0 = BitVec.ofNat 64 (c * 2 ^ 16 + r) →
      ∃ u, exec i (s.given i) = .next u ∧ u.ecode = .ok ∧ u.result = (t.descAt r c).setWidth 64

/-- 43_pipeline.md R237 (corner cases), 42_encoder.md R209, 45_uniformity.md R301. For RILBP the second pass of R238 takes the
least rotation, which is never above the code of the first pass (44_rotation.md R280). -/
def Obligations.InteriorCodesFitThePattern : Prop :=
  ∀ (i : Instr) (s t : State), i ∈ fillCommands → s.issued → exec i s = .next t → t.ecode = .ok →
    ∀ r c, s.inInterior r c = true →
      (i ≠ .ulbp → (t.descAt r c).toNat < 2 ^ s.cfgP) ∧
      (i = .ulbp → (t.descAt r c).toNat < 2 ^ s.cfgP ∨ (t.descAt r c).toNat = s.cfgP + 1)

/-- 10_state.md R40, R43, R47; 60_exceptions.md R325; 20_memory.md R90. -/
def Obligations.SmallCommandsFrame : Prop :=
  ∀ (i : Instr) (s : State), i ∈ smallCommands → s.issued →
    ∃ t, exec i s = .next t ∧
      t = { s with result := t.result, sregs := t.sregs, errinfo := t.errinfo, ecode := t.ecode, busy := false,
                   done := true, flight := {} } ∧
      (t.ecode ≠ .ok → t.result = s.result ∧ t.sregs = s.sregs) ∧
      (t.ecode ≠ .ebounds → t.errinfo = s.errinfo) ∧
      (i ∈ [Instr.nop, .encodeTM, .encodeBM, .encodeTL, .encodeBL, .bandcmp, .rimin, .uclass] → t.sregs = s.sregs) ∧
      (i ∈ [Instr.sampleN, .sampleB, .sampleT] → ∀ p, p ≠ s.argSidx → t.sreg p = s.sreg p) ∧
      (∀ p, s.cfgP ≤ p → i ∈ [Instr.pixelLbpN, .pixelLbpB, .pixelRilbp, .pixelUlbp, .pixelAlbpN, .pixelAlbpB] →
        t.sreg p = s.sreg p) ∧
      ∀ a, t.imgByte a = s.imgByte a ∧ t.descByte a = s.descByte a

/-- 20_memory.md R90, R91; 10_state.md R46, R47. It holds for every state, with a command in any phase. -/
def Obligations.PipelineNeverWritesInputs : Prop :=
  ∀ s t : State, step s = .next t →
    (∀ e rest, s.agenda = e :: rest → e = .core ∨ e = .run) →
    t = { s with busy := t.busy, done := t.done, ecode := t.ecode, result := t.result, progress := t.progress,
                 errinfo := t.errinfo, sregs := t.sregs, desc := t.desc, flight := t.flight, agenda := s.agenda.tail } ∧
    ∀ a, s.height * s.width ≤ a → t.descByte a = s.descByte a

/-- 10_state.md R44, 20_memory.md R82. Atomicity is that each access is one step. -/
def Obligations.CsrWindowAccess : Prop :=
  (∀ (r : Csr) (s : State), r.offset % 8 = 0 ∧
    hostAccess (.read 8 (BitVec.ofNat 18 r.offset)) s = (s, .data (s.readCsr r)) ∧
    ∀ v, s.busy = false → hostAccess (.write 8 (BitVec.ofNat 18 r.offset) v) s = (s.writeCsr r v, .accepted)) ∧
  ∀ (s : State) (width : Nat) (offset : Offset) (v : Word), offset.toNat < 0x1000 →
    width ≠ 8 ∨ offset.toNat % 8 ≠ 0 ∨ (0x058 ≤ offset.toNat ∧ offset.toNat ≤ 0x07F) ∨ 0x0C0 ≤ offset.toNat →
      hostAccess (.read width offset) s = (s, .busError) ∧ hostAccess (.write width offset v) s = (s, .busError)

/-- 20_memory.md R85, and the reserved ranges of R81. Both windows are 64 KiB long. -/
def Obligations.RefusedAccesses : Prop :=
  (∀ (s : State) (b : Buffer) (width k : Nat) (v : Word), k < 0x10000 →
    width ∉ [1, 2, 4, 8] ∨ k % width ≠ 0 ∨ s.maxPix < k + width →
      hostAccess (.read width (BitVec.ofNat 18 (b.window + k))) s = (s, .busError) ∧
      hostAccess (.write width (BitVec.ofNat 18 (b.window + k)) v) s = (s, .busError)) ∧
  ∀ (s : State) (width : Nat) (offset : Offset) (v : Word),
    (0x01000 ≤ offset.toNat ∧ offset.toNat ≤ 0x0FFFF) ∨ 0x30000 ≤ offset.toNat →
      hostAccess (.read width offset) s = (s, .busError) ∧ hostAccess (.write width offset v) s = (s, .busError)

/-- 20_memory.md R83, with R88 for the reads. Two clauses are the model's choice: the zeros above the width of a read, and that
only the low bytes of a write count, are log 13 (DEDUCED); that the any-value bytes of a DESC read while BUSY = 1 are
Config.freeBusyByte of the draw counter is log 9 (DESIGN CHOICE). The free bytes are only named, in the last clause; nothing is
said of their values. -/
def Obligations.WindowsAreLittleEndian : Prop :=
  ∀ (s : State) (b : Buffer) (n k : Nat), s.maxPix ≤ 65536 → n ∈ [1, 2, 4, 8] → k % n = 0 → k + n ≤ s.maxPix →
    (∀ v : Word, s.busy = false →
      ∃ t, hostAccess (.write n (BitVec.ofNat 18 (b.window + k)) v) s = (t, .accepted) ∧
        t = { s with img := t.img, desc := t.desc } ∧
        ∀ (b' : Buffer) (a : Nat), t.byteOf b' a =
          if b' = b ∧ k ≤ a ∧ a < k + n then v.extractLsb' (8 * (a - k)) 8 else s.byteOf b' a) ∧
    ∃ t d, hostAccess (.read n (BitVec.ofNat 18 (b.window + k))) s = (t, .data d) ∧ d.toNat < 2 ^ (8 * n) ∧
      t = { s with draws := t.draws } ∧
      (b = .img ∨ s.busy = false → t = s ∧ ∀ i < n, d.extractLsb' (8 * i) 8 = s.byteOf b (k + i)) ∧
      (b = .desc ∧ s.busy = true → ∀ i < n, d.extractLsb' (8 * i) 8 = Config.freeBusyByte s.draws (k + i))

/-- 20_memory.md R87. -/
def Obligations.BusyRefusesWrites : Prop :=
  (∀ (s : State) (v : Word), s.busy = true →
    (∀ r ∈ [Csr.ctrl, .band, .dim, .cmd, .arg0, .arg1],
      hostAccess (.write 8 (BitVec.ofNat 18 r.offset) v) s = (s, .busError)) ∧
    (∀ p : Fin 8, hostAccess (.write 8 (BitVec.ofNat 18 (0x080 + 8 * p.val)) v) s = (s, .busError)) ∧
    ∀ (width : Nat) (offset : Offset), 0x10000 ≤ offset.toNat → offset.toNat < 0x30000 →
      hostAccess (.write width offset v) s = (s, .busError)) ∧
  ∀ (s : State) (v : Word),
    hostAccess (.write 8 0x28#18 v) s = ({ s with done := if v.getLsbD 1 then false else s.done }, .accepted) ∧
    ∀ r ∈ [Csr.id, .result, .progress, .errinfo], hostAccess (.write 8 (BitVec.ofNat 18 r.offset) v) s = (s, .accepted)

/-- 20_memory.md R89. The draw counter is the model's (log 9). -/
def Obligations.ReadsHaveNoSideEffect : Prop :=
  (∀ (s : State) (width : Nat) (offset : Offset),
    (hostAccess (.read width offset) s).1 = { s with draws := (hostAccess (.read width offset) s).1.draws }) ∧
  (∀ (s : State) (v : Word) (r : Csr), r ∈ [Csr.id, .result, .progress, .errinfo] →
    hostAccess (.write 8 (BitVec.ofNat 18 r.offset) v) s = (s, .accepted)) ∧
  ∀ (s t : State) (reply : Reply) (width : Nat) (offset : Offset) (v : Word),
    hostAccess (.write width offset v) s = (t, reply) →
    (t.busy, t.done, t.ecode, t.progress, t.errinfo, t.flight) ≠ (s.busy, s.done, s.ecode, s.progress, s.errinfo, s.flight) →
      (width = 8 ∧ offset = 0x20#18 ∧ s.busy = false ∧ t = s.issue v) ∨
      (width = 8 ∧ offset = 0x28#18 ∧ v.getLsbD 1 = true ∧ t = { s with done := false })

/-- 10_state.md R32, R33, R34, R38, R39, R43. -/
def Obligations.RegistersHoldWhatIsWritten : Prop :=
  (∀ (s : State) (v : Word), s.busy = false →
    hostAccess (.write 8 0x08#18 v) s = ({ s with ctrl := v &&& 0x1FFFF#64 }, .accepted) ∧
    hostAccess (.write 8 0x10#18 v) s = ({ s with band := v }, .accepted) ∧
    hostAccess (.write 8 0x18#18 v) s = ({ s with dim := v &&& 0xFFFFFFFF#64 }, .accepted) ∧
    hostAccess (.write 8 0x30#18 v) s = ({ s with arg0 := v }, .accepted) ∧
    hostAccess (.write 8 0x38#18 v) s = ({ s with arg1 := v }, .accepted) ∧
    ∀ p : Fin 8, hostAccess (.write 8 (BitVec.ofNat 18 (0x080 + 8 * p.val)) v) s =
      ({ s with sregs := s.sregs.set p.val v }, .accepted)) ∧
  ∀ s : State,
    hostAccess (.read 8 0x08#18) s = (s, .data s.ctrl) ∧ hostAccess (.read 8 0x10#18) s = (s, .data s.band) ∧
    hostAccess (.read 8 0x18#18) s = (s, .data s.dim) ∧ hostAccess (.read 8 0x30#18) s = (s, .data s.arg0) ∧
    hostAccess (.read 8 0x38#18) s = (s, .data s.arg1) ∧
    (∀ p : Fin 8, hostAccess (.read 8 (BitVec.ofNat 18 (0x080 + 8 * p.val))) s = (s, .data s.sregs[p])) ∧
    s.cfgP = s.ctrl.toNat % 2 ^ 8 ∧ s.cfgR = s.ctrl.toNat / 2 ^ 8 % 2 ^ 8 ∧ s.intEnable = s.ctrl.getLsbD 16 ∧
    s.height = s.dim.toNat % 2 ^ 16 ∧ s.width = s.dim.toNat / 2 ^ 16 % 2 ^ 16 ∧
    s.argRow = s.arg0.toNat % 2 ^ 16 ∧ s.argCol = s.arg0.toNat / 2 ^ 16 % 2 ^ 16 ∧ s.argSidx = s.arg0.toNat / 2 ^ 32 % 2 ^ 8 ∧
    s.argVal.toNat = s.arg1.toNat % 2 ^ 8 ∧ s.argSidx1 = s.arg1.toNat / 2 ^ 8 % 2 ^ 8

/-- 10_state.md R37, with the numbers of 60_exceptions.md R321. -/
def Obligations.StatusRegister : Prop :=
  (∀ s : State, ∃ w : Word, hostAccess (.read 8 0x28#18) s = (s, .data w) ∧
    w.getLsbD 0 = s.busy ∧ w.getLsbD 1 = s.done ∧ w.getLsbD 2 = false ∧
    w.getLsbD 3 = (s.done && s.ctrl.getLsbD 16) ∧ w.extractLsb' 4 4 = 0#4 ∧
    w.extractLsb' 8 4 = s.ecode.value ∧ w.extractLsb' 12 52 = 0#52) ∧
  [Code.ok, .econfig, .eoverflow, .ebounds, .eillegal, .eoperand].map Code.value = [0#4, 1#4, 2#4, 3#4, 4#4, 5#4] ∧
  (∀ (s : State) (v : Word),
    hostAccess (.write 8 0x28#18 v) s = ({ s with done := if v.getLsbD 1 then false else s.done }, .accepted)) ∧
  (∀ (s : State) (w : Word), (s.issue w).busy = true ∧ (s.issue w).done = false ∧ (s.issue w).ecode = .ok) ∧
  (∀ s : State, s.complete.busy = false ∧ s.complete.done = true ∧ s.complete.ecode = s.flight.code) ∧
  (∀ s : State, s.wf = true → ¬ (s.busy = true ∧ s.done = true)) ∧
  State.reset.statusWord = 0#64

/-- 60_exceptions.md R329, 10_state.md R49, 70_reset_and_hazards.md R379, R370. -/
def Obligations.InterruptLevel : Prop :=
  (∀ s : State, s.irq = (s.done && s.ctrl.getLsbD 16)) ∧
  (∀ s t : State, s.wf = true → step s = .next t → s.irq = true → t.irq = false →
    ∃ e rest, s.agenda = e :: rest ∧
      (e = .reset ∨ (∃ v : Word, e = .access (.write 8 0x28#18 v) ∧ v.getLsbD 1 = true) ∨
        (∃ v : Word, e = .access (.write 8 0x20#18 v)) ∨ ∃ v : Word, e = .access (.write 8 0x08#18 v) ∧ v.getLsbD 16 = false)) ∧
  ∀ s t : State, s.wf = true → step s = .next t → s.irq = false → t.irq = true →
    (s.busy = true ∧ t.busy = false ∧ t.done = true) ∨
    ∃ (v : Word) (rest : List Event), s.agenda = .access (.write 8 0x08#18 v) :: rest ∧ v.getLsbD 16 = true

/-- 30_encoding.md R137. -/
def Obligations.PseudoInstructionExpansions : Prop :=
  (∀ i : Instr, (Pseudo.cmd i).expand = [.wrCsr .cmd (encode i)]) ∧
  (∀ l v : String, (Pseudo.wait l v).expand = [.label l, .rdCsr .status v, .and v 0x3#64, .bne v 0x2#64 l]) ∧
  Pseudo.ack.expand = [.wrCsr .status 0x2#64] ∧
  (∀ (p r : Byte) (ie : Bool), (Pseudo.cfg p r ie).expand =
    [.wrCsr .ctrl (BitVec.ofNat 64 (ie.toNat * 2 ^ 16 + r.toNat * 2 ^ 8 + p.toNat))]) ∧
  (∀ h w : BitVec 16, (Pseudo.dim h w).expand = [.wrCsr .dim (BitVec.ofNat 64 (w.toNat * 2 ^ 16 + h.toNat))]) ∧
  (∀ (row col : BitVec 16) (p : Byte), (Pseudo.arg0 row col p).expand =
    [.wrCsr .arg0 (BitVec.ofNat 64 (p.toNat * 2 ^ 32 + col.toNat * 2 ^ 16 + row.toNat))]) ∧
  (∀ v k : Byte, (Pseudo.arg1 v k).expand = [.wrCsr .arg1 (BitVec.ofNat 64 (k.toNat * 2 ^ 8 + v.toNat))]) ∧
  ∀ b : F64, (Pseudo.band b).expand = [.wrCsr .band b]

/-- 10_state.md R50; 70_reset_and_hazards.md R370, R371. The value of an unwritten byte is free (log 8). -/
def Obligations.ResetValues : Prop :=
  (State.reset.readCsr .id = 0x000000074C425043#64 ∧ State.reset.readCsr .ctrl = 0x0000000000000108#64 ∧
    State.reset.readCsr .band = 0x3FB999999999999A#64 ∧
    (∀ r ∈ [Csr.dim, .cmd, .status, .arg0, .arg1, .result, .progress, .errinfo], State.reset.readCsr r = 0#64) ∧
    (∀ p : Fin 8, State.reset.readCsr (.s p) = 0#64) ∧
    State.reset.cfgP = 8 ∧ State.reset.cfgR = 1 ∧ State.reset.intEnable = false ∧ State.reset.irq = false ∧
    State.reset.flight.phase = .idle ∧ State.reset.flight.pending = {} ∧
    ∀ a, State.reset.img.written a = none ∧ State.reset.desc.written a = none) ∧
  ∀ (s : State) (rest : List Event), s.agenda = .reset :: rest →
    ∃ t, step s = .next t ∧ t.agenda = rest ∧ t.replies = s.replies ∧
      (∀ r : Csr, t.readCsr r = State.reset.readCsr r) ∧ t.flight.phase = .idle ∧ t.flight.pending = {} ∧
      t.busy = false ∧ t.done = false ∧ t.ecode = .ok ∧ t.irq = false ∧ t.result = 0#64 ∧ (∀ p, t.sreg p = 0#64) ∧
      ∀ a, t.img.written a = none ∧ t.desc.written a = none

/-- 10_state.md R50, 00_scope.md R5. -/
def Obligations.ResetIsGood : Prop :=
  State.reset.wf = true ∧ State.reset.scanOk = true ∧ State.reset.paramsOk = true ∧ State.reset.trigInUnit = true

/-- 10_state.md R32, R34, R37, R42, R45 to R48; 20_memory.md R94; 43_pipeline.md R230. -/
def Obligations.StepKeepsGoodState : Prop :=
  ∀ s t : State, step s = .next t → (s.wf = true → t.wf = true) ∧ t.maxPix = s.maxPix ∧ t.trig = s.trig

/-- 10_state.md R36, R41; 43_pipeline.md R233, R242. -/
def Obligations.StepKeepsScanPlace : Prop :=
  ∀ s t : State, s.wf = true → s.scanOk = true → step s = .next t → t.scanOk = true

/-- 20_memory.md R94. The premises are the invariants that StepKeepsGoodState and StepKeepsScanPlace state. -/
def Obligations.SecondPassAfterFirst : Prop :=
  ∀ (s t : State) (rest : List Event), s.wf = true → s.scanOk = true → s.agenda = .core :: rest → step s = .next t →
    (s.flight.phase ≠ .pass2 → t.flight.phase = .pass2 →
      decode s.cmd = .ok .rilbp ∧ t.progress = BitVec.ofNat 64 s.interiorCount ∧ t.flight.pass1Done = true) ∧
    (s.flight.phase = .pass2 → s.inInterior s.flight.row s.flight.col = true →
      t.descAt s.flight.row s.flight.col = rimin8 (s.descAt s.flight.row s.flight.col) s.cfgP ∧
      ∀ a, a ≠ s.cellOffset s.flight.row s.flight.col → t.descByte a = s.descByte a)

end
end

