-- ==== Sys2Proof/Laws/State.lean ====
section
/-!
SUPPORT. One lemma for each field and each update of State, true by rfl, so that no proof unfolds an update; then the same for the
register fields that commands read.
-/
namespace Sys2Proof.Laws

open Sys2Proof Sys2Proof.Machine

variable (s : State)

/-! issue -/

@[simp] theorem issue_ctrl (w : Word) : (s.issue w).ctrl = s.ctrl := rfl
@[simp] theorem issue_band (w : Word) : (s.issue w).band = s.band := rfl
@[simp] theorem issue_dim (w : Word) : (s.issue w).dim = s.dim := rfl
@[simp] theorem issue_cmd (w : Word) : (s.issue w).cmd = w := rfl
@[simp] theorem issue_busy (w : Word) : (s.issue w).busy = true := rfl
@[simp] theorem issue_done (w : Word) : (s.issue w).done = false := rfl
@[simp] theorem issue_ecode (w : Word) : (s.issue w).ecode = .ok := rfl
@[simp] theorem issue_arg0 (w : Word) : (s.issue w).arg0 = s.arg0 := rfl
@[simp] theorem issue_arg1 (w : Word) : (s.issue w).arg1 = s.arg1 := rfl
@[simp] theorem issue_result (w : Word) : (s.issue w).result = s.result := rfl
@[simp] theorem issue_progress (w : Word) : (s.issue w).progress = 0#64 := rfl
@[simp] theorem issue_errinfo (w : Word) : (s.issue w).errinfo = 0#64 := rfl
@[simp] theorem issue_sregs (w : Word) : (s.issue w).sregs = s.sregs := rfl
@[simp] theorem issue_img (w : Word) : (s.issue w).img = s.img := rfl
@[simp] theorem issue_desc (w : Word) : (s.issue w).desc = s.desc := rfl
@[simp] theorem issue_flight (w : Word) : (s.issue w).flight = { phase := .check } := rfl
@[simp] theorem issue_agenda (w : Word) : (s.issue w).agenda = s.agenda := rfl
@[simp] theorem issue_replies (w : Word) : (s.issue w).replies = s.replies := rfl
@[simp] theorem issue_epoch (w : Word) : (s.issue w).epoch = s.epoch := rfl
@[simp] theorem issue_draws (w : Word) : (s.issue w).draws = s.draws := rfl
@[simp] theorem issue_maxPix (w : Word) : (s.issue w).maxPix = s.maxPix := rfl
@[simp] theorem issue_trig (w : Word) : (s.issue w).trig = s.trig := rfl
@[simp] theorem issue_cfgP (w : Word) : (s.issue w).cfgP = s.cfgP := rfl
@[simp] theorem issue_cfgR (w : Word) : (s.issue w).cfgR = s.cfgR := rfl
@[simp] theorem issue_intEnable (w : Word) : (s.issue w).intEnable = s.intEnable := rfl
@[simp] theorem issue_height (w : Word) : (s.issue w).height = s.height := rfl
@[simp] theorem issue_width (w : Word) : (s.issue w).width = s.width := rfl
@[simp] theorem issue_argRow (w : Word) : (s.issue w).argRow = s.argRow := rfl
@[simp] theorem issue_argCol (w : Word) : (s.issue w).argCol = s.argCol := rfl
@[simp] theorem issue_argSidx (w : Word) : (s.issue w).argSidx = s.argSidx := rfl
@[simp] theorem issue_argVal (w : Word) : (s.issue w).argVal = s.argVal := rfl
@[simp] theorem issue_argSidx1 (w : Word) : (s.issue w).argSidx1 = s.argSidx1 := rfl
@[simp] theorem issue_imgByte (w : Word) (a : Nat) : (s.issue w).imgByte a = s.imgByte a := rfl
@[simp] theorem issue_descByte (w : Word) (a : Nat) : (s.issue w).descByte a = s.descByte a := rfl

/-! raise -/

@[simp] theorem raise_ctrl (e : Code) : (s.raise e).ctrl = s.ctrl := rfl
@[simp] theorem raise_band (e : Code) : (s.raise e).band = s.band := rfl
@[simp] theorem raise_dim (e : Code) : (s.raise e).dim = s.dim := rfl
@[simp] theorem raise_cmd (e : Code) : (s.raise e).cmd = s.cmd := rfl
@[simp] theorem raise_busy (e : Code) : (s.raise e).busy = s.busy := rfl
@[simp] theorem raise_done (e : Code) : (s.raise e).done = s.done := rfl
@[simp] theorem raise_ecode (e : Code) : (s.raise e).ecode = s.ecode := rfl
@[simp] theorem raise_arg0 (e : Code) : (s.raise e).arg0 = s.arg0 := rfl
@[simp] theorem raise_arg1 (e : Code) : (s.raise e).arg1 = s.arg1 := rfl
@[simp] theorem raise_result (e : Code) : (s.raise e).result = s.result := rfl
@[simp] theorem raise_progress (e : Code) : (s.raise e).progress = s.progress := rfl
@[simp] theorem raise_errinfo (e : Code) : (s.raise e).errinfo = s.errinfo := rfl
@[simp] theorem raise_sregs (e : Code) : (s.raise e).sregs = s.sregs := rfl
@[simp] theorem raise_img (e : Code) : (s.raise e).img = s.img := rfl
@[simp] theorem raise_desc (e : Code) : (s.raise e).desc = s.desc := rfl
@[simp] theorem raise_flight (e : Code) : (s.raise e).flight = { phase := .complete, code := e } := rfl
@[simp] theorem raise_agenda (e : Code) : (s.raise e).agenda = s.agenda := rfl
@[simp] theorem raise_replies (e : Code) : (s.raise e).replies = s.replies := rfl
@[simp] theorem raise_epoch (e : Code) : (s.raise e).epoch = s.epoch := rfl
@[simp] theorem raise_draws (e : Code) : (s.raise e).draws = s.draws := rfl
@[simp] theorem raise_maxPix (e : Code) : (s.raise e).maxPix = s.maxPix := rfl
@[simp] theorem raise_trig (e : Code) : (s.raise e).trig = s.trig := rfl
@[simp] theorem raise_cfgP (e : Code) : (s.raise e).cfgP = s.cfgP := rfl
@[simp] theorem raise_cfgR (e : Code) : (s.raise e).cfgR = s.cfgR := rfl
@[simp] theorem raise_intEnable (e : Code) : (s.raise e).intEnable = s.intEnable := rfl
@[simp] theorem raise_height (e : Code) : (s.raise e).height = s.height := rfl
@[simp] theorem raise_width (e : Code) : (s.raise e).width = s.width := rfl
@[simp] theorem raise_argRow (e : Code) : (s.raise e).argRow = s.argRow := rfl
@[simp] theorem raise_argCol (e : Code) : (s.raise e).argCol = s.argCol := rfl
@[simp] theorem raise_argSidx (e : Code) : (s.raise e).argSidx = s.argSidx := rfl
@[simp] theorem raise_argVal (e : Code) : (s.raise e).argVal = s.argVal := rfl
@[simp] theorem raise_argSidx1 (e : Code) : (s.raise e).argSidx1 = s.argSidx1 := rfl
@[simp] theorem raise_imgByte (e : Code) (a : Nat) : (s.raise e).imgByte a = s.imgByte a := rfl
@[simp] theorem raise_descByte (e : Code) (a : Nat) : (s.raise e).descByte a = s.descByte a := rfl

/-! raiseBounds -/

@[simp] theorem raiseBounds_ctrl (o : OutOfBounds) : (s.raiseBounds o).ctrl = s.ctrl := rfl
@[simp] theorem raiseBounds_band (o : OutOfBounds) : (s.raiseBounds o).band = s.band := rfl
@[simp] theorem raiseBounds_dim (o : OutOfBounds) : (s.raiseBounds o).dim = s.dim := rfl
@[simp] theorem raiseBounds_cmd (o : OutOfBounds) : (s.raiseBounds o).cmd = s.cmd := rfl
@[simp] theorem raiseBounds_busy (o : OutOfBounds) : (s.raiseBounds o).busy = s.busy := rfl
@[simp] theorem raiseBounds_done (o : OutOfBounds) : (s.raiseBounds o).done = s.done := rfl
@[simp] theorem raiseBounds_ecode (o : OutOfBounds) : (s.raiseBounds o).ecode = s.ecode := rfl
@[simp] theorem raiseBounds_arg0 (o : OutOfBounds) : (s.raiseBounds o).arg0 = s.arg0 := rfl
@[simp] theorem raiseBounds_arg1 (o : OutOfBounds) : (s.raiseBounds o).arg1 = s.arg1 := rfl
@[simp] theorem raiseBounds_result (o : OutOfBounds) : (s.raiseBounds o).result = s.result := rfl
@[simp] theorem raiseBounds_progress (o : OutOfBounds) : (s.raiseBounds o).progress = s.progress := rfl
@[simp] theorem raiseBounds_errinfo (o : OutOfBounds) : (s.raiseBounds o).errinfo = o.info := rfl
@[simp] theorem raiseBounds_sregs (o : OutOfBounds) : (s.raiseBounds o).sregs = s.sregs := rfl
@[simp] theorem raiseBounds_img (o : OutOfBounds) : (s.raiseBounds o).img = s.img := rfl
@[simp] theorem raiseBounds_desc (o : OutOfBounds) : (s.raiseBounds o).desc = s.desc := rfl
@[simp] theorem raiseBounds_flight (o : OutOfBounds) : (s.raiseBounds o).flight = { phase := .complete, code := .ebounds } := rfl
@[simp] theorem raiseBounds_agenda (o : OutOfBounds) : (s.raiseBounds o).agenda = s.agenda := rfl
@[simp] theorem raiseBounds_replies (o : OutOfBounds) : (s.raiseBounds o).replies = s.replies := rfl
@[simp] theorem raiseBounds_epoch (o : OutOfBounds) : (s.raiseBounds o).epoch = s.epoch := rfl
@[simp] theorem raiseBounds_draws (o : OutOfBounds) : (s.raiseBounds o).draws = s.draws := rfl
@[simp] theorem raiseBounds_maxPix (o : OutOfBounds) : (s.raiseBounds o).maxPix = s.maxPix := rfl
@[simp] theorem raiseBounds_trig (o : OutOfBounds) : (s.raiseBounds o).trig = s.trig := rfl
@[simp] theorem raiseBounds_cfgP (o : OutOfBounds) : (s.raiseBounds o).cfgP = s.cfgP := rfl
@[simp] theorem raiseBounds_cfgR (o : OutOfBounds) : (s.raiseBounds o).cfgR = s.cfgR := rfl
@[simp] theorem raiseBounds_intEnable (o : OutOfBounds) : (s.raiseBounds o).intEnable = s.intEnable := rfl
@[simp] theorem raiseBounds_height (o : OutOfBounds) : (s.raiseBounds o).height = s.height := rfl
@[simp] theorem raiseBounds_width (o : OutOfBounds) : (s.raiseBounds o).width = s.width := rfl
@[simp] theorem raiseBounds_argRow (o : OutOfBounds) : (s.raiseBounds o).argRow = s.argRow := rfl
@[simp] theorem raiseBounds_argCol (o : OutOfBounds) : (s.raiseBounds o).argCol = s.argCol := rfl
@[simp] theorem raiseBounds_argSidx (o : OutOfBounds) : (s.raiseBounds o).argSidx = s.argSidx := rfl
@[simp] theorem raiseBounds_argVal (o : OutOfBounds) : (s.raiseBounds o).argVal = s.argVal := rfl
@[simp] theorem raiseBounds_argSidx1 (o : OutOfBounds) : (s.raiseBounds o).argSidx1 = s.argSidx1 := rfl
@[simp] theorem raiseBounds_imgByte (o : OutOfBounds) (a : Nat) : (s.raiseBounds o).imgByte a = s.imgByte a := rfl
@[simp] theorem raiseBounds_descByte (o : OutOfBounds) (a : Nat) : (s.raiseBounds o).descByte a = s.descByte a := rfl

/-! finish -/

@[simp] theorem finish_ctrl (p : Pending) : (s.finish p).ctrl = s.ctrl := rfl
@[simp] theorem finish_band (p : Pending) : (s.finish p).band = s.band := rfl
@[simp] theorem finish_dim (p : Pending) : (s.finish p).dim = s.dim := rfl
@[simp] theorem finish_cmd (p : Pending) : (s.finish p).cmd = s.cmd := rfl
@[simp] theorem finish_busy (p : Pending) : (s.finish p).busy = s.busy := rfl
@[simp] theorem finish_done (p : Pending) : (s.finish p).done = s.done := rfl
@[simp] theorem finish_ecode (p : Pending) : (s.finish p).ecode = s.ecode := rfl
@[simp] theorem finish_arg0 (p : Pending) : (s.finish p).arg0 = s.arg0 := rfl
@[simp] theorem finish_arg1 (p : Pending) : (s.finish p).arg1 = s.arg1 := rfl
@[simp] theorem finish_result (p : Pending) : (s.finish p).result = s.result := rfl
@[simp] theorem finish_progress (p : Pending) : (s.finish p).progress = s.progress := rfl
@[simp] theorem finish_errinfo (p : Pending) : (s.finish p).errinfo = s.errinfo := rfl
@[simp] theorem finish_sregs (p : Pending) : (s.finish p).sregs = s.sregs := rfl
@[simp] theorem finish_img (p : Pending) : (s.finish p).img = s.img := rfl
@[simp] theorem finish_desc (p : Pending) : (s.finish p).desc = s.desc := rfl
@[simp] theorem finish_flight (p : Pending) : (s.finish p).flight = { phase := .complete, pending := p } := rfl
@[simp] theorem finish_agenda (p : Pending) : (s.finish p).agenda = s.agenda := rfl
@[simp] theorem finish_replies (p : Pending) : (s.finish p).replies = s.replies := rfl
@[simp] theorem finish_epoch (p : Pending) : (s.finish p).epoch = s.epoch := rfl
@[simp] theorem finish_draws (p : Pending) : (s.finish p).draws = s.draws := rfl
@[simp] theorem finish_maxPix (p : Pending) : (s.finish p).maxPix = s.maxPix := rfl
@[simp] theorem finish_trig (p : Pending) : (s.finish p).trig = s.trig := rfl
@[simp] theorem finish_cfgP (p : Pending) : (s.finish p).cfgP = s.cfgP := rfl
@[simp] theorem finish_cfgR (p : Pending) : (s.finish p).cfgR = s.cfgR := rfl
@[simp] theorem finish_intEnable (p : Pending) : (s.finish p).intEnable = s.intEnable := rfl
@[simp] theorem finish_height (p : Pending) : (s.finish p).height = s.height := rfl
@[simp] theorem finish_width (p : Pending) : (s.finish p).width = s.width := rfl
@[simp] theorem finish_argRow (p : Pending) : (s.finish p).argRow = s.argRow := rfl
@[simp] theorem finish_argCol (p : Pending) : (s.finish p).argCol = s.argCol := rfl
@[simp] theorem finish_argSidx (p : Pending) : (s.finish p).argSidx = s.argSidx := rfl
@[simp] theorem finish_argVal (p : Pending) : (s.finish p).argVal = s.argVal := rfl
@[simp] theorem finish_argSidx1 (p : Pending) : (s.finish p).argSidx1 = s.argSidx1 := rfl
@[simp] theorem finish_imgByte (p : Pending) (a : Nat) : (s.finish p).imgByte a = s.imgByte a := rfl
@[simp] theorem finish_descByte (p : Pending) (a : Nat) : (s.finish p).descByte a = s.descByte a := rfl

/-! complete -/

@[simp] theorem complete_ctrl : (s.complete).ctrl = s.ctrl := rfl
@[simp] theorem complete_band : (s.complete).band = s.band := rfl
@[simp] theorem complete_dim : (s.complete).dim = s.dim := rfl
@[simp] theorem complete_cmd : (s.complete).cmd = s.cmd := rfl
@[simp] theorem complete_busy : (s.complete).busy = false := rfl
@[simp] theorem complete_done : (s.complete).done = true := rfl
@[simp] theorem complete_ecode : (s.complete).ecode = s.flight.code := rfl
@[simp] theorem complete_arg0 : (s.complete).arg0 = s.arg0 := rfl
@[simp] theorem complete_arg1 : (s.complete).arg1 = s.arg1 := rfl
@[simp] theorem complete_result : (s.complete).result = whenOk s.flight.code (s.flight.pending.result.getD s.result) s.result := rfl
@[simp] theorem complete_progress : (s.complete).progress = s.progress := rfl
@[simp] theorem complete_errinfo : (s.complete).errinfo = s.errinfo := rfl
@[simp] theorem complete_sregs : (s.complete).sregs = whenOk s.flight.code (setSregs s.sregs s.flight.pending.samples) s.sregs := rfl
@[simp] theorem complete_img : (s.complete).img = s.img := rfl
@[simp] theorem complete_desc : (s.complete).desc = s.desc := rfl
@[simp] theorem complete_flight : (s.complete).flight = {} := rfl
@[simp] theorem complete_agenda : (s.complete).agenda = s.agenda := rfl
@[simp] theorem complete_replies : (s.complete).replies = s.replies := rfl
@[simp] theorem complete_epoch : (s.complete).epoch = s.epoch := rfl
@[simp] theorem complete_draws : (s.complete).draws = s.draws := rfl
@[simp] theorem complete_maxPix : (s.complete).maxPix = s.maxPix := rfl
@[simp] theorem complete_trig : (s.complete).trig = s.trig := rfl
@[simp] theorem complete_cfgP : (s.complete).cfgP = s.cfgP := rfl
@[simp] theorem complete_cfgR : (s.complete).cfgR = s.cfgR := rfl
@[simp] theorem complete_intEnable : (s.complete).intEnable = s.intEnable := rfl
@[simp] theorem complete_height : (s.complete).height = s.height := rfl
@[simp] theorem complete_width : (s.complete).width = s.width := rfl
@[simp] theorem complete_argRow : (s.complete).argRow = s.argRow := rfl
@[simp] theorem complete_argCol : (s.complete).argCol = s.argCol := rfl
@[simp] theorem complete_argSidx : (s.complete).argSidx = s.argSidx := rfl
@[simp] theorem complete_argVal : (s.complete).argVal = s.argVal := rfl
@[simp] theorem complete_argSidx1 : (s.complete).argSidx1 = s.argSidx1 := rfl
@[simp] theorem complete_imgByte (a : Nat) : (s.complete).imgByte a = s.imgByte a := rfl
@[simp] theorem complete_descByte (a : Nat) : (s.complete).descByte a = s.descByte a := rfl

/-! setDescAt -/

@[simp] theorem setDescAt_ctrl (r c : Nat) (v : Byte) : (s.setDescAt r c v).ctrl = s.ctrl := rfl
@[simp] theorem setDescAt_band (r c : Nat) (v : Byte) : (s.setDescAt r c v).band = s.band := rfl
@[simp] theorem setDescAt_dim (r c : Nat) (v : Byte) : (s.setDescAt r c v).dim = s.dim := rfl
@[simp] theorem setDescAt_cmd (r c : Nat) (v : Byte) : (s.setDescAt r c v).cmd = s.cmd := rfl
@[simp] theorem setDescAt_busy (r c : Nat) (v : Byte) : (s.setDescAt r c v).busy = s.busy := rfl
@[simp] theorem setDescAt_done (r c : Nat) (v : Byte) : (s.setDescAt r c v).done = s.done := rfl
@[simp] theorem setDescAt_ecode (r c : Nat) (v : Byte) : (s.setDescAt r c v).ecode = s.ecode := rfl
@[simp] theorem setDescAt_arg0 (r c : Nat) (v : Byte) : (s.setDescAt r c v).arg0 = s.arg0 := rfl
@[simp] theorem setDescAt_arg1 (r c : Nat) (v : Byte) : (s.setDescAt r c v).arg1 = s.arg1 := rfl
@[simp] theorem setDescAt_result (r c : Nat) (v : Byte) : (s.setDescAt r c v).result = s.result := rfl
@[simp] theorem setDescAt_progress (r c : Nat) (v : Byte) : (s.setDescAt r c v).progress = s.progress := rfl
@[simp] theorem setDescAt_errinfo (r c : Nat) (v : Byte) : (s.setDescAt r c v).errinfo = s.errinfo := rfl
@[simp] theorem setDescAt_sregs (r c : Nat) (v : Byte) : (s.setDescAt r c v).sregs = s.sregs := rfl
@[simp] theorem setDescAt_img (r c : Nat) (v : Byte) : (s.setDescAt r c v).img = s.img := rfl
@[simp] theorem setDescAt_desc (r c : Nat) (v : Byte) : (s.setDescAt r c v).desc = s.desc.set (s.cellOffset r c) v := rfl
@[simp] theorem setDescAt_flight (r c : Nat) (v : Byte) : (s.setDescAt r c v).flight = s.flight := rfl
@[simp] theorem setDescAt_agenda (r c : Nat) (v : Byte) : (s.setDescAt r c v).agenda = s.agenda := rfl
@[simp] theorem setDescAt_replies (r c : Nat) (v : Byte) : (s.setDescAt r c v).replies = s.replies := rfl
@[simp] theorem setDescAt_epoch (r c : Nat) (v : Byte) : (s.setDescAt r c v).epoch = s.epoch := rfl
@[simp] theorem setDescAt_draws (r c : Nat) (v : Byte) : (s.setDescAt r c v).draws = s.draws := rfl
@[simp] theorem setDescAt_maxPix (r c : Nat) (v : Byte) : (s.setDescAt r c v).maxPix = s.maxPix := rfl
@[simp] theorem setDescAt_trig (r c : Nat) (v : Byte) : (s.setDescAt r c v).trig = s.trig := rfl
@[simp] theorem setDescAt_cfgP (r c : Nat) (v : Byte) : (s.setDescAt r c v).cfgP = s.cfgP := rfl
@[simp] theorem setDescAt_cfgR (r c : Nat) (v : Byte) : (s.setDescAt r c v).cfgR = s.cfgR := rfl
@[simp] theorem setDescAt_intEnable (r c : Nat) (v : Byte) : (s.setDescAt r c v).intEnable = s.intEnable := rfl
@[simp] theorem setDescAt_height (r c : Nat) (v : Byte) : (s.setDescAt r c v).height = s.height := rfl
@[simp] theorem setDescAt_width (r c : Nat) (v : Byte) : (s.setDescAt r c v).width = s.width := rfl
@[simp] theorem setDescAt_argRow (r c : Nat) (v : Byte) : (s.setDescAt r c v).argRow = s.argRow := rfl
@[simp] theorem setDescAt_argCol (r c : Nat) (v : Byte) : (s.setDescAt r c v).argCol = s.argCol := rfl
@[simp] theorem setDescAt_argSidx (r c : Nat) (v : Byte) : (s.setDescAt r c v).argSidx = s.argSidx := rfl
@[simp] theorem setDescAt_argVal (r c : Nat) (v : Byte) : (s.setDescAt r c v).argVal = s.argVal := rfl
@[simp] theorem setDescAt_argSidx1 (r c : Nat) (v : Byte) : (s.setDescAt r c v).argSidx1 = s.argSidx1 := rfl
@[simp] theorem setDescAt_imgByte (r c : Nat) (v : Byte) (a : Nat) : (s.setDescAt r c v).imgByte a = s.imgByte a := rfl

/-! zeroFillDesc -/

@[simp] theorem zeroFillDesc_ctrl : (s.zeroFillDesc).ctrl = s.ctrl := rfl
@[simp] theorem zeroFillDesc_band : (s.zeroFillDesc).band = s.band := rfl
@[simp] theorem zeroFillDesc_dim : (s.zeroFillDesc).dim = s.dim := rfl
@[simp] theorem zeroFillDesc_cmd : (s.zeroFillDesc).cmd = s.cmd := rfl
@[simp] theorem zeroFillDesc_busy : (s.zeroFillDesc).busy = s.busy := rfl
@[simp] theorem zeroFillDesc_done : (s.zeroFillDesc).done = s.done := rfl
@[simp] theorem zeroFillDesc_ecode : (s.zeroFillDesc).ecode = s.ecode := rfl
@[simp] theorem zeroFillDesc_arg0 : (s.zeroFillDesc).arg0 = s.arg0 := rfl
@[simp] theorem zeroFillDesc_arg1 : (s.zeroFillDesc).arg1 = s.arg1 := rfl
@[simp] theorem zeroFillDesc_result : (s.zeroFillDesc).result = s.result := rfl
@[simp] theorem zeroFillDesc_progress : (s.zeroFillDesc).progress = s.progress := rfl
@[simp] theorem zeroFillDesc_errinfo : (s.zeroFillDesc).errinfo = s.errinfo := rfl
@[simp] theorem zeroFillDesc_sregs : (s.zeroFillDesc).sregs = s.sregs := rfl
@[simp] theorem zeroFillDesc_img : (s.zeroFillDesc).img = s.img := rfl
@[simp] theorem zeroFillDesc_desc : (s.zeroFillDesc).desc = s.desc.zeroFill (s.height * s.width) := rfl
@[simp] theorem zeroFillDesc_flight : (s.zeroFillDesc).flight = s.flight := rfl
@[simp] theorem zeroFillDesc_agenda : (s.zeroFillDesc).agenda = s.agenda := rfl
@[simp] theorem zeroFillDesc_replies : (s.zeroFillDesc).replies = s.replies := rfl
@[simp] theorem zeroFillDesc_epoch : (s.zeroFillDesc).epoch = s.epoch := rfl
@[simp] theorem zeroFillDesc_draws : (s.zeroFillDesc).draws = s.draws := rfl
@[simp] theorem zeroFillDesc_maxPix : (s.zeroFillDesc).maxPix = s.maxPix := rfl
@[simp] theorem zeroFillDesc_trig : (s.zeroFillDesc).trig = s.trig := rfl
@[simp] theorem zeroFillDesc_cfgP : (s.zeroFillDesc).cfgP = s.cfgP := rfl
@[simp] theorem zeroFillDesc_cfgR : (s.zeroFillDesc).cfgR = s.cfgR := rfl
@[simp] theorem zeroFillDesc_intEnable : (s.zeroFillDesc).intEnable = s.intEnable := rfl
@[simp] theorem zeroFillDesc_height : (s.zeroFillDesc).height = s.height := rfl
@[simp] theorem zeroFillDesc_width : (s.zeroFillDesc).width = s.width := rfl
@[simp] theorem zeroFillDesc_argRow : (s.zeroFillDesc).argRow = s.argRow := rfl
@[simp] theorem zeroFillDesc_argCol : (s.zeroFillDesc).argCol = s.argCol := rfl
@[simp] theorem zeroFillDesc_argSidx : (s.zeroFillDesc).argSidx = s.argSidx := rfl
@[simp] theorem zeroFillDesc_argVal : (s.zeroFillDesc).argVal = s.argVal := rfl
@[simp] theorem zeroFillDesc_argSidx1 : (s.zeroFillDesc).argSidx1 = s.argSidx1 := rfl
@[simp] theorem zeroFillDesc_imgByte (a : Nat) : (s.zeroFillDesc).imgByte a = s.imgByte a := rfl

/-! advance -/

@[simp] theorem advance_ctrl : (s.advance).ctrl = s.ctrl := rfl
@[simp] theorem advance_band : (s.advance).band = s.band := rfl
@[simp] theorem advance_dim : (s.advance).dim = s.dim := rfl
@[simp] theorem advance_cmd : (s.advance).cmd = s.cmd := rfl
@[simp] theorem advance_busy : (s.advance).busy = s.busy := rfl
@[simp] theorem advance_done : (s.advance).done = s.done := rfl
@[simp] theorem advance_ecode : (s.advance).ecode = s.ecode := rfl
@[simp] theorem advance_arg0 : (s.advance).arg0 = s.arg0 := rfl
@[simp] theorem advance_arg1 : (s.advance).arg1 = s.arg1 := rfl
@[simp] theorem advance_result : (s.advance).result = s.result := rfl
@[simp] theorem advance_progress : (s.advance).progress = s.progress + 1#64 := rfl
@[simp] theorem advance_errinfo : (s.advance).errinfo = s.errinfo := rfl
@[simp] theorem advance_sregs : (s.advance).sregs = s.sregs := rfl
@[simp] theorem advance_img : (s.advance).img = s.img := rfl
@[simp] theorem advance_desc : (s.advance).desc = s.desc := rfl
@[simp] theorem advance_agenda : (s.advance).agenda = s.agenda := rfl
@[simp] theorem advance_replies : (s.advance).replies = s.replies := rfl
@[simp] theorem advance_epoch : (s.advance).epoch = s.epoch := rfl
@[simp] theorem advance_draws : (s.advance).draws = s.draws := rfl
@[simp] theorem advance_maxPix : (s.advance).maxPix = s.maxPix := rfl
@[simp] theorem advance_trig : (s.advance).trig = s.trig := rfl
@[simp] theorem advance_flight_phase : s.advance.flight.phase = s.flight.phase := rfl
@[simp] theorem advance_flight_row : s.advance.flight.row = (s.nextPlace s.flight.row s.flight.col).1 := rfl
@[simp] theorem advance_flight_col : s.advance.flight.col = (s.nextPlace s.flight.row s.flight.col).2 := rfl
@[simp] theorem advance_flight_pending : s.advance.flight.pending = s.flight.pending := rfl
@[simp] theorem advance_flight_pass1Done : s.advance.flight.pass1Done = s.flight.pass1Done := rfl
@[simp] theorem advance_flight_code : s.advance.flight.code = s.flight.code := rfl
@[simp] theorem advance_cfgP : (s.advance).cfgP = s.cfgP := rfl
@[simp] theorem advance_cfgR : (s.advance).cfgR = s.cfgR := rfl
@[simp] theorem advance_intEnable : (s.advance).intEnable = s.intEnable := rfl
@[simp] theorem advance_height : (s.advance).height = s.height := rfl
@[simp] theorem advance_width : (s.advance).width = s.width := rfl
@[simp] theorem advance_argRow : (s.advance).argRow = s.argRow := rfl
@[simp] theorem advance_argCol : (s.advance).argCol = s.argCol := rfl
@[simp] theorem advance_argSidx : (s.advance).argSidx = s.argSidx := rfl
@[simp] theorem advance_argVal : (s.advance).argVal = s.argVal := rfl
@[simp] theorem advance_argSidx1 : (s.advance).argSidx1 = s.argSidx1 := rfl
@[simp] theorem advance_imgByte (a : Nat) : (s.advance).imgByte a = s.imgByte a := rfl
@[simp] theorem advance_descByte (a : Nat) : (s.advance).descByte a = s.descByte a := rfl

/-! startSecond -/

@[simp] theorem startSecond_ctrl : (s.startSecond).ctrl = s.ctrl := rfl
@[simp] theorem startSecond_band : (s.startSecond).band = s.band := rfl
@[simp] theorem startSecond_dim : (s.startSecond).dim = s.dim := rfl
@[simp] theorem startSecond_cmd : (s.startSecond).cmd = s.cmd := rfl
@[simp] theorem startSecond_busy : (s.startSecond).busy = s.busy := rfl
@[simp] theorem startSecond_done : (s.startSecond).done = s.done := rfl
@[simp] theorem startSecond_ecode : (s.startSecond).ecode = s.ecode := rfl
@[simp] theorem startSecond_arg0 : (s.startSecond).arg0 = s.arg0 := rfl
@[simp] theorem startSecond_arg1 : (s.startSecond).arg1 = s.arg1 := rfl
@[simp] theorem startSecond_result : (s.startSecond).result = s.result := rfl
@[simp] theorem startSecond_progress : (s.startSecond).progress = s.progress := rfl
@[simp] theorem startSecond_errinfo : (s.startSecond).errinfo = s.errinfo := rfl
@[simp] theorem startSecond_sregs : (s.startSecond).sregs = s.sregs := rfl
@[simp] theorem startSecond_img : (s.startSecond).img = s.img := rfl
@[simp] theorem startSecond_desc : (s.startSecond).desc = s.desc := rfl
@[simp] theorem startSecond_flight : (s.startSecond).flight = { phase := .pass2, row := s.cfgR, col := s.cfgR, pass1Done := true } := rfl
@[simp] theorem startSecond_agenda : (s.startSecond).agenda = s.agenda := rfl
@[simp] theorem startSecond_replies : (s.startSecond).replies = s.replies := rfl
@[simp] theorem startSecond_epoch : (s.startSecond).epoch = s.epoch := rfl
@[simp] theorem startSecond_draws : (s.startSecond).draws = s.draws := rfl
@[simp] theorem startSecond_maxPix : (s.startSecond).maxPix = s.maxPix := rfl
@[simp] theorem startSecond_trig : (s.startSecond).trig = s.trig := rfl
@[simp] theorem startSecond_cfgP : (s.startSecond).cfgP = s.cfgP := rfl
@[simp] theorem startSecond_cfgR : (s.startSecond).cfgR = s.cfgR := rfl
@[simp] theorem startSecond_intEnable : (s.startSecond).intEnable = s.intEnable := rfl
@[simp] theorem startSecond_height : (s.startSecond).height = s.height := rfl
@[simp] theorem startSecond_width : (s.startSecond).width = s.width := rfl
@[simp] theorem startSecond_argRow : (s.startSecond).argRow = s.argRow := rfl
@[simp] theorem startSecond_argCol : (s.startSecond).argCol = s.argCol := rfl
@[simp] theorem startSecond_argSidx : (s.startSecond).argSidx = s.argSidx := rfl
@[simp] theorem startSecond_argVal : (s.startSecond).argVal = s.argVal := rfl
@[simp] theorem startSecond_argSidx1 : (s.startSecond).argSidx1 = s.argSidx1 := rfl
@[simp] theorem startSecond_imgByte (a : Nat) : (s.startSecond).imgByte a = s.imgByte a := rfl
@[simp] theorem startSecond_descByte (a : Nat) : (s.startSecond).descByte a = s.descByte a := rfl

/-! writeStatus -/

@[simp] theorem writeStatus_ctrl (v : Word) : (s.writeStatus v).ctrl = s.ctrl := rfl
@[simp] theorem writeStatus_band (v : Word) : (s.writeStatus v).band = s.band := rfl
@[simp] theorem writeStatus_dim (v : Word) : (s.writeStatus v).dim = s.dim := rfl
@[simp] theorem writeStatus_cmd (v : Word) : (s.writeStatus v).cmd = s.cmd := rfl
@[simp] theorem writeStatus_busy (v : Word) : (s.writeStatus v).busy = s.busy := rfl
@[simp] theorem writeStatus_done (v : Word) : (s.writeStatus v).done = (s.done && !v.getLsbD 1) := rfl
@[simp] theorem writeStatus_ecode (v : Word) : (s.writeStatus v).ecode = s.ecode := rfl
@[simp] theorem writeStatus_arg0 (v : Word) : (s.writeStatus v).arg0 = s.arg0 := rfl
@[simp] theorem writeStatus_arg1 (v : Word) : (s.writeStatus v).arg1 = s.arg1 := rfl
@[simp] theorem writeStatus_result (v : Word) : (s.writeStatus v).result = s.result := rfl
@[simp] theorem writeStatus_progress (v : Word) : (s.writeStatus v).progress = s.progress := rfl
@[simp] theorem writeStatus_errinfo (v : Word) : (s.writeStatus v).errinfo = s.errinfo := rfl
@[simp] theorem writeStatus_sregs (v : Word) : (s.writeStatus v).sregs = s.sregs := rfl
@[simp] theorem writeStatus_img (v : Word) : (s.writeStatus v).img = s.img := rfl
@[simp] theorem writeStatus_desc (v : Word) : (s.writeStatus v).desc = s.desc := rfl
@[simp] theorem writeStatus_flight (v : Word) : (s.writeStatus v).flight = s.flight := rfl
@[simp] theorem writeStatus_agenda (v : Word) : (s.writeStatus v).agenda = s.agenda := rfl
@[simp] theorem writeStatus_replies (v : Word) : (s.writeStatus v).replies = s.replies := rfl
@[simp] theorem writeStatus_epoch (v : Word) : (s.writeStatus v).epoch = s.epoch := rfl
@[simp] theorem writeStatus_draws (v : Word) : (s.writeStatus v).draws = s.draws := rfl
@[simp] theorem writeStatus_maxPix (v : Word) : (s.writeStatus v).maxPix = s.maxPix := rfl
@[simp] theorem writeStatus_trig (v : Word) : (s.writeStatus v).trig = s.trig := rfl
@[simp] theorem writeStatus_cfgP (v : Word) : (s.writeStatus v).cfgP = s.cfgP := rfl
@[simp] theorem writeStatus_cfgR (v : Word) : (s.writeStatus v).cfgR = s.cfgR := rfl
@[simp] theorem writeStatus_intEnable (v : Word) : (s.writeStatus v).intEnable = s.intEnable := rfl
@[simp] theorem writeStatus_height (v : Word) : (s.writeStatus v).height = s.height := rfl
@[simp] theorem writeStatus_width (v : Word) : (s.writeStatus v).width = s.width := rfl
@[simp] theorem writeStatus_argRow (v : Word) : (s.writeStatus v).argRow = s.argRow := rfl
@[simp] theorem writeStatus_argCol (v : Word) : (s.writeStatus v).argCol = s.argCol := rfl
@[simp] theorem writeStatus_argSidx (v : Word) : (s.writeStatus v).argSidx = s.argSidx := rfl
@[simp] theorem writeStatus_argVal (v : Word) : (s.writeStatus v).argVal = s.argVal := rfl
@[simp] theorem writeStatus_argSidx1 (v : Word) : (s.writeStatus v).argSidx1 = s.argSidx1 := rfl
@[simp] theorem writeStatus_imgByte (v : Word) (a : Nat) : (s.writeStatus v).imgByte a = s.imgByte a := rfl
@[simp] theorem writeStatus_descByte (v : Word) (a : Nat) : (s.writeStatus v).descByte a = s.descByte a := rfl

/-! resetPulse -/

@[simp] theorem resetPulse_ctrl : (s.resetPulse).ctrl = State.reset.ctrl := rfl
@[simp] theorem resetPulse_band : (s.resetPulse).band = State.reset.band := rfl
@[simp] theorem resetPulse_dim : (s.resetPulse).dim = State.reset.dim := rfl
@[simp] theorem resetPulse_cmd : (s.resetPulse).cmd = State.reset.cmd := rfl
@[simp] theorem resetPulse_busy : (s.resetPulse).busy = State.reset.busy := rfl
@[simp] theorem resetPulse_done : (s.resetPulse).done = State.reset.done := rfl
@[simp] theorem resetPulse_ecode : (s.resetPulse).ecode = State.reset.ecode := rfl
@[simp] theorem resetPulse_arg0 : (s.resetPulse).arg0 = State.reset.arg0 := rfl
@[simp] theorem resetPulse_arg1 : (s.resetPulse).arg1 = State.reset.arg1 := rfl
@[simp] theorem resetPulse_result : (s.resetPulse).result = State.reset.result := rfl
@[simp] theorem resetPulse_progress : (s.resetPulse).progress = State.reset.progress := rfl
@[simp] theorem resetPulse_errinfo : (s.resetPulse).errinfo = State.reset.errinfo := rfl
@[simp] theorem resetPulse_sregs : (s.resetPulse).sregs = State.reset.sregs := rfl
@[simp] theorem resetPulse_img : (s.resetPulse).img = State.reset.img := rfl
@[simp] theorem resetPulse_desc : (s.resetPulse).desc = State.reset.desc := rfl
@[simp] theorem resetPulse_flight : (s.resetPulse).flight = State.reset.flight := rfl
@[simp] theorem resetPulse_agenda : (s.resetPulse).agenda = s.agenda := rfl
@[simp] theorem resetPulse_replies : (s.resetPulse).replies = s.replies := rfl
@[simp] theorem resetPulse_epoch : (s.resetPulse).epoch = s.epoch + 1 := rfl
@[simp] theorem resetPulse_draws : (s.resetPulse).draws = s.draws := rfl
@[simp] theorem resetPulse_maxPix : (s.resetPulse).maxPix = s.maxPix := rfl
@[simp] theorem resetPulse_trig : (s.resetPulse).trig = s.trig := rfl

end Sys2Proof.Laws
end

