-- ==== Sys2Proof/Laws/Engine.lean ====
section
/-!
SUPPORT. What the life cycle of a command can do: one core step by phase, and whole commands in closed form.
-/
namespace Sys2Proof.Laws

open Sys2Proof Sys2Proof.Machine

theorem runSteps_idle (k : Plan) (n : Nat) (s : State) (h : s.flight.phase = .idle) : runSteps k n s = s := by
  cases n <;> simp [runSteps, h]

theorem runSteps_succ (k : Plan) (n : Nat) (s : State) (h : s.flight.phase ≠ .idle) :
    runSteps k (n + 1) s = runSteps k n (coreStep k s) := by
  simp [runSteps, h]

/-- The state of the last phase completes in one core step. -/
theorem runSteps_complete (k : Plan) (n : Nat) (s : State) (h : s.flight.phase = .complete) :
    runSteps k (n + 1) s = s.complete := by
  rw [runSteps_succ _ _ _ (by simp [h]), runSteps_idle]
  · simp [coreStep, h]
  · simp [coreStep, h]

theorem coreStep_check_error (k : Plan) (s : State) (e : Code) (h : s.flight.phase = .check)
    (hc : checkCode k s = some e) : coreStep k s = s.raise e := by
  simp [coreStep, h, hc]

theorem coreStep_check_ok (k : Plan) (s : State) (h : s.flight.phase = .check) (hc : checkCode k s = none) :
    coreStep k s = s.startWork k.work := by
  simp [coreStep, h, hc]

theorem stepBound_split (s : State) : ∃ n, s.stepBound = n + 5 :=
  ⟨2 * ((s.height + 1) * (s.width + 1)) + 3, rfl⟩

/-- A failed check: the code is reported, and nothing else of the state changes (60_exceptions.md R325). -/
theorem runPlan_check_error (k : Plan) (s : State) (e : Code) (h : s.flight.phase = .check)
    (hc : checkCode k s = some e) : runPlan k s = .next (s.raise e).complete := by
  obtain ⟨n, hn⟩ := stepBound_split s
  rw [runPlan, hn, runSteps_succ _ _ _ (by simp [h]), coreStep_check_error k s e h hc, runSteps_complete]
  rfl

/-- A command without work: NOP. -/
theorem runPlan_nothing (k : Plan) (s : State) (h : s.flight.phase = .check) (hc : checkCode k s = none)
    (hw : k.work = .nothing) : runPlan k s = .next (s.finish {}).complete := by
  obtain ⟨n, hn⟩ := stepBound_split s
  rw [runPlan, hn, runSteps_succ _ _ _ (by simp [h]), coreStep_check_ok k s h hc, hw, State.startWork,
    runSteps_complete]
  rfl

/-- The state of a component command between its checks and its one execution step. -/
def executing (s : State) : State := { s with flight := { phase := .pass1 } }

/-- A component command that computes `p`: completion writes it. -/
theorem runPlan_component_ok (k : Plan) (s : State) (f : State → Except OutOfBounds Pending) (p : Pending)
    (h : s.flight.phase = .check) (hc : checkCode k s = none) (hw : k.work = .component f)
    (hf : f (executing s) = .ok p) : runPlan k s = .next (s.finish p).complete := by
  obtain ⟨n, hn⟩ := stepBound_split s
  rw [runPlan, hn, runSteps_succ _ _ _ (by simp [h]), coreStep_check_ok k s h hc, hw, State.startWork,
    runSteps_succ _ _ _ (by simp)]
  have hf' : f { s with flight := { phase := .pass1 } } = .ok p := hf
  simp only [coreStep, hw, firstPassStep, hf']
  rw [runSteps_complete _ _ _ (by simp)]
  rfl

/-- A component command whose bounds test fails: EBOUNDS. -/
theorem runPlan_component_error (k : Plan) (s : State) (f : State → Except OutOfBounds Pending) (o : OutOfBounds)
    (h : s.flight.phase = .check) (hc : checkCode k s = none) (hw : k.work = .component f)
    (hf : f (executing s) = .error o) : runPlan k s = .next (s.raiseBounds o).complete := by
  obtain ⟨n, hn⟩ := stepBound_split s
  rw [runPlan, hn, runSteps_succ _ _ _ (by simp [h]), coreStep_check_ok k s h hc, hw, State.startWork,
    runSteps_succ _ _ _ (by simp)]
  have hf' : f { s with flight := { phase := .pass1 } } = .error o := hf
  simp only [coreStep, hw, firstPassStep, hf']
  rw [runSteps_complete _ _ _ (by simp)]
  rfl

/-! What a command computes does not depend on the state of the command in flight. -/

theorem sample_executing (s : State) (m : Mode) (r c p : Nat) : sample (executing s) m r c p = sample s m r c p := rfl

theorem sampleList_executing (s : State) (m : Mode) (r c : Nat) (l : List Nat) :
    sampleList (executing s) m r c l = sampleList s m r c l := by
  induction l with
  | nil => rfl
  | cons p rest ih => simp only [sampleList, ih, sample_executing]

theorem describe_executing (v : Variant) (m : Mode) (s : State) (r c : Nat) :
    describe v m (executing s) r c = describe v m s r c := by
  simp only [describe, show (executing s).inImage r c = s.inImage r c from rfl,
    show (executing s).cfgP = s.cfgP from rfl, sampleList_executing]
  rfl

/-- What the check stage says, in the order of 60_exceptions.md R328. -/
theorem checkCode_none_iff (k : Plan) (s : State) :
    checkCode k s = none ↔
      k.legal = true ∧ badConfig k.reads s = false ∧ badWidth k.reads s = false ∧ k.operandBad s = false := by
  unfold checkCode
  cases k.legal <;> cases badConfig k.reads s <;> cases badWidth k.reads s <;> cases k.operandBad s <;> simp

/-- One core step of a command, by its phase. -/
theorem coreStep_cases (k : Plan) (s : State) :
    (s.flight.phase = .idle ∧ coreStep k s = s) ∨
    (s.flight.phase = .check ∧ ∃ e, checkCode k s = some e ∧ coreStep k s = s.raise e) ∨
    (s.flight.phase = .check ∧ checkCode k s = none ∧ coreStep k s = s.startWork k.work) ∨
    (s.flight.phase = .fill ∧ coreStep k s = fillStep k.work s) ∨
    (s.flight.phase = .pass1 ∧ coreStep k s = firstPassStep k.work s) ∨
    (s.flight.phase = .pass2 ∧ coreStep k s = secondPassStep k.work s) ∨
    (s.flight.phase = .complete ∧ coreStep k s = s.complete) := by
  cases h : s.flight.phase <;> simp only [coreStep, h]
  · simp
  · cases hc : checkCode k s <;> simp
  all_goals simp

/-- One pixel step: a cell is written and the scan moves on, or EBOUNDS is raised. -/
theorem pixelStep_cases (f : Pass) (s : State) :
    (∃ v, f s s.flight.row s.flight.col = .ok v ∧
      pixelStep f s = (s.setDescAt s.flight.row s.flight.col v).advance) ∨
    (∃ o, f s s.flight.row s.flight.col = .error o ∧ pixelStep f s = s.raiseBounds o) := by
  unfold pixelStep
  cases h : f s s.flight.row s.flight.col with
  | ok v => exact .inl ⟨v, rfl, rfl⟩
  | error o => exact .inr ⟨o, rfl, rfl⟩

end Sys2Proof.Laws
end

