-- ==== Sys2Proof/Laws/Checks.lean ====
section
/-!
SUPPORT. The conditions of Safety.lean on a command and a state, told by the check stage.
-/
namespace Sys2Proof.Laws

open Sys2Proof Sys2Proof.Machine

theorem configBad_iff (i : Instr) (s : State) : i.configBad s ↔ badConfig (planOf i).reads s = true := by
  have hb : ¬ (isFinite s.band = true ∧ fge s.band Config.zero64 = true) ↔ bandLegal s.band = false := by
    unfold bandLegal; cases isFinite s.band <;> cases fge s.band Config.zero64 <;> simp
  have hr : i.readsP = (planOf i).reads.p ∧ i.readsImage = (planOf i).reads.r ∧ i.readsB = (planOf i).reads.b ∧
      (planOf i).reads.dim = (planOf i).reads.r := by
    cases i <;> decide
  obtain ⟨h1, h2, h3, h4⟩ := hr
  unfold Instr.configBad badConfig
  rw [hb, h1, h2, h3, h4]
  simp only [Bool.or_eq_true, Bool.and_eq_true, decide_eq_true_eq, Bool.not_eq_true', or_assoc]

theorem widthBad_iff (i : Instr) (s : State) : i.widthBad s ↔ badWidth (planOf i).reads s = true := by
  have h1 : i.readsP = (planOf i).reads.p := by cases i <;> decide
  unfold Instr.widthBad badWidth
  rw [h1]
  simp only [Bool.and_eq_true, decide_eq_true_eq]
  rfl

theorem operandFault_iff (i : Instr) (s : State) : i.operandFault s ↔ (planOf i).operandBad s = true := by
  cases i <;>
    simp [Instr.operandFault, planOf, planNop, planLbpN, planLbpB, planRilbp, planUlbp, planAlbpN, planAlbpB, planRipass,
      planSampleN, planSampleB, planSampleT, planEncodeTM, planEncodeBM, planEncodeTL, planEncodeBL, planBandcmp,
      planRimin, planUclass, planPixelLbpN, planPixelLbpB, planPixelRilbp, planPixelUlbp, planPixelAlbpN, planPixelAlbpB,
      operandNone, operandSample, operandPixel, operandCode, operandBandcmp]

theorem planOf_legal (i : Instr) : (planOf i).legal = true := by cases i <;> rfl

/-- A command's checks all pass exactly when the check stage finds no code. -/
theorem accepts_iff (i : Instr) (s : State) : i.accepts s ↔ checkCode (planOf i) s = none := by
  rw [checkCode_none_iff, Instr.accepts, configBad_iff, widthBad_iff, operandFault_iff]
  simp [planOf_legal]

end Sys2Proof.Laws
end

