-- ==== Sys2Proof/Laws/Functions.lean ====
section
/-!
SUPPORT. What the functions of the units can do, said once: the bounds test, the list of samples, the descriptor of a pixel.
-/
namespace Sys2Proof.Laws

open Sys2Proof Sys2Proof.Machine

/-- A pixel read gives the pixel, or the failed test when the place is outside the image (41_sampler.md R167). -/
theorem readPixel_cases (s : State) (r c : Int) (p : Nat) :
    (s.inImage r c = true ∧ readPixel s r c p = .ok (f64OfNat (s.imgAt r.toNat c.toNat).toNat)) ∨
    (s.inImage r c = false ∧ readPixel s r c p = .error ⟨r, c, p⟩) := by
  unfold readPixel
  cases s.inImage r c <;> simp

theorem except_bind_ok {ε α β : Type} (x : Except ε α) (f : α → Except ε β) (b : β) (h : x >>= f = .ok b) :
    ∃ a, x = .ok a ∧ f a = .ok b := by
  cases x with
  | ok a => exact ⟨a, rfl, h⟩
  | error e => cases h

theorem except_bind_error {ε α β : Type} (x : Except ε α) (f : α → Except ε β) (e : ε) (h : x >>= f = .error e) :
    x = .error e ∨ ∃ a, x = .ok a ∧ f a = .error e := by
  cases x with
  | ok a => exact .inr ⟨a, rfl, h⟩
  | error e' => cases h; exact .inl rfl

/-- Samples that are all in bounds: one value for each index, in order. -/
theorem sampleList_ok (s : State) (m : Mode) (r c : Nat) (l : List Nat) (vs : List F64)
    (h : sampleList s m r c l = .ok vs) : List.Forall₂ (fun p v => sample s m r c p = .ok v) l vs := by
  induction l generalizing vs with
  | nil => cases h; exact .nil
  | cons p rest ih =>
    obtain ⟨v, hv, h⟩ := except_bind_ok _ _ _ h
    obtain ⟨ws, hw, h⟩ := except_bind_ok _ _ _ h
    cases h
    exact .cons hv (ih ws hw)

theorem sampleList_length (s : State) (m : Mode) (r c : Nat) (l : List Nat) (vs : List F64)
    (h : sampleList s m r c l = .ok vs) : vs.length = l.length :=
  (sampleList_ok s m r c l vs h).length_eq.symm

/-- Samples of which one is out of bounds: the first such sample's failed test (60_exceptions.md R326). -/
theorem sampleList_error (s : State) (m : Mode) (r c : Nat) (l : List Nat) (o : OutOfBounds)
    (h : sampleList s m r c l = .error o) :
    ∃ pre p post, l = pre ++ p :: post ∧ sample s m r c p = .error o ∧ ∀ q ∈ pre, ∃ v, sample s m r c q = .ok v := by
  induction l with
  | nil => cases h
  | cons p rest ih =>
    rcases except_bind_error _ _ _ h with h | ⟨v, hv, h⟩
    · exact ⟨[], p, rest, rfl, h, by simp⟩
    · rcases except_bind_error _ _ _ h with h | ⟨ws, -, h⟩
      · obtain ⟨pre, q, post, rfl, hq, hpre⟩ := ih h
        refine ⟨p :: pre, q, post, rfl, hq, ?_⟩
        intro x hx
        rcases List.mem_cons.1 hx with rfl | hx
        · exact ⟨v, hv⟩
        · exact hpre x hx
      · cases h

/-- The descriptor of a pixel: its centre is in the image and its samples give the code; or the first failed test. -/
theorem describe_cases (v : Variant) (m : Mode) (s : State) (r c : Nat) :
    (s.inImage r c = true ∧ ∃ vs, sampleList s (variantMode v m) r c (List.range s.cfgP) = .ok vs ∧
      describe v m s r c = .ok (pixelCode v s.cfgP s.band (s.imgAt r c) vs, vs)) ∨
    (s.inImage r c = true ∧ ∃ o, sampleList s (variantMode v m) r c (List.range s.cfgP) = .error o ∧
      describe v m s r c = .error o) ∨
    (s.inImage r c = false ∧ describe v m s r c = .error ⟨r, c, 0xFF⟩) := by
  unfold describe
  cases hb : s.inImage r c
  · simp
  · cases h : sampleList s (variantMode v m) r c (List.range s.cfgP) with
    | ok vs => exact .inl ⟨rfl, vs, rfl, rfl⟩
    | error o => exact .inr (.inl ⟨rfl, o, rfl, rfl⟩)

end Sys2Proof.Laws
end

