-- ==== Sys2Proof/Laws/HostProgram.lean ====
section
/-!
SUPPORT. What the notation of host programs can do, said once: where a buffer operand points, and which line a label means.
-/
namespace Sys2Proof.Laws

open Sys2Proof Sys2Proof.Machine

/-- A buffer operand inside CORE's 256 KiB is the offset of the window plus k (30_encoding.md R136). -/
theorem operandOffset_inside (b : Buffer) (k : Nat) (h : b.window + k < 0x40000) :
    b.operandOffset k = some (BitVec.ofNat 18 (b.window + k)) := by
  simp [Buffer.operandOffset, busOffset, Config.busSpan, h]

/-- A buffer operand outside them selects no offset of CORE (log 15). -/
theorem operandOffset_outside (b : Buffer) (k : Nat) (h : 0x40000 ≤ b.window + k) : b.operandOffset k = none := by
  simp [Buffer.operandOffset, busOffset, Config.busSpan, h]

/-- Such a line makes no transaction, and the host does not go on (log 15). -/
theorem hostStep_operand_outside (prog : List HostOp) (h : HostState) (s : State) (b : Buffer) (width k : Nat) (v : Word)
    (hk : 0x40000 ≤ b.window + k) (hp : prog[h.place]? = some (.wrBuf b width k v)) : hostStep prog h s = none := by
  simp [hostStep, hp, HostOp.transaction, operandOffset_outside b k hk]

/-- A label means the first line that carries it (log 15). -/
theorem labelPlace_first (prog : List HostOp) (name : String) (n : Nat) (h : labelPlace prog name = some n) :
    prog[n]? = some (.label name) ∧ ∀ m < n, prog[m]? ≠ some (.label name) := by
  obtain ⟨hn, hl, hf⟩ := List.findIdx?_eq_some_iff_getElem.1 h
  refine ⟨by rw [List.getElem?_eq_getElem hn]; simpa using hl, fun m hm he => hf m hm ?_⟩
  obtain ⟨_, e⟩ := List.getElem?_eq_some_iff.1 he
  simp [e]

end Sys2Proof.Laws
end

