-- ==== Sys2Proof/Laws/Memory.lean ====
section
/-!
SUPPORT. Reading after writing, and the canonical form, for every buffer operation.
-/
namespace Sys2Proof.Laws

open Sys2Proof Sys2Proof.Machine

theorem written_set_same (m : Memory) (a : Nat) (v : Byte) : (Memory.set m a v).written a = some v := by
  induction m with
  | nil => simp [Memory.set, Memory.written]
  | cons x rest ih =>
    obtain ⟨k, u⟩ := x
    simp only [Memory.set]
    split
    · simp [Memory.written]
    · split
      · simp [Memory.written]
      · next h1 h2 => simp [Memory.written, Ne.symm h2, ih]

theorem written_set_other (m : Memory) (a b : Nat) (v : Byte) (h : b ≠ a) :
    (Memory.set m a v).written b = m.written b := by
  induction m with
  | nil => simp [Memory.set, Memory.written, Ne.symm h]
  | cons x rest ih =>
    obtain ⟨k, u⟩ := x
    simp only [Memory.set]
    split
    · simp [Memory.written, Ne.symm h]
    · split
      · next h2 => subst h2; simp [Memory.written, Ne.symm h]
      · simp only [Memory.written]; split <;> simp [ih]

/-- A write of n bytes leaves every offset outside them alone. -/
theorem written_setBytes_outside (m : Memory) (a n : Nat) (v : Word) (b : Nat) (h : b < a ∨ a + n ≤ b) :
    (Memory.setBytes m a n v).written b = m.written b := by
  induction n generalizing m a v with
  | zero => rfl
  | succ k ih =>
    simp only [Memory.setBytes]
    rw [ih _ _ _ (by omega), written_set_other _ _ _ _ (by omega)]

/-- Byte i of a write of n bytes is bits [8i+7:8i] of the value. -/
theorem written_setBytes_inside (m : Memory) (a n : Nat) (v : Word) (i : Nat) (h : i < n) :
    (Memory.setBytes m a n v).written (a + i) = some ((v >>> (8 * i)).extractLsb' 0 8) := by
  induction n generalizing m a v i with
  | zero => omega
  | succ k ih =>
    simp only [Memory.setBytes]
    cases i with
    | zero =>
      rw [written_setBytes_outside _ _ _ _ _ (by omega)]
      simpa using written_set_same m a (v.extractLsb' 0 8)
    | succ j =>
      have := ih (Memory.set m a (v.extractLsb' 0 8)) (a + 1) (v >>> 8) j (by omega)
      rw [show a + (j + 1) = a + 1 + j by omega, this, ← BitVec.shiftRight_add, show 8 + 8 * j = 8 * (j + 1) by omega]

theorem written_append_of_none (m n : Memory) (a : Nat) (h : m.written a = none) :
    Memory.written (m ++ n) a = Memory.written n a := by
  induction m with
  | nil => rfl
  | cons x rest ih =>
    obtain ⟨k, u⟩ := x
    simp only [List.cons_append, Memory.written] at h ⊢
    split at h
    · simp at h
    · next hk => simp [hk, ih h]

theorem written_append_of_some (m n : Memory) (a : Nat) (v : Byte) (h : m.written a = some v) :
    Memory.written (m ++ n) a = some v := by
  induction m with
  | nil => simp [Memory.written] at h
  | cons x rest ih =>
    obtain ⟨k, u⟩ := x
    simp only [List.cons_append, Memory.written] at h ⊢
    split at h
    · next hk => simpa [hk] using h
    · next hk => simp [hk, ih h]

theorem written_filter_ge (m : Memory) (n a : Nat) :
    Memory.written (m.filter (fun cell => decide (n ≤ cell.1))) a = if n ≤ a then m.written a else none := by
  induction m with
  | nil => simp [Memory.written]
  | cons x rest ih =>
    obtain ⟨k, u⟩ := x
    by_cases hk : n ≤ k
    · rw [List.filter_cons_of_pos (by simpa using hk)]
      simp only [Memory.written]
      by_cases hka : k = a
      · subst hka; simp [hk]
      · simp [hka, ih]
    · rw [List.filter_cons_of_neg (by simpa using hk), ih]
      simp only [Memory.written]
      by_cases ha : n ≤ a
      · simp [ha, show k ≠ a by omega]
      · simp [ha]

theorem written_zeros (l : List Nat) (a : Nat) :
    Memory.written (l.map (fun a => (a, 0#8))) a = if a ∈ l then some 0#8 else none := by
  induction l with
  | nil => simp [Memory.written]
  | cons k rest ih =>
    simp only [List.map_cons, Memory.written, ih, List.mem_cons]
    by_cases h : k = a
    · simp [h]
    · simp [h, Ne.symm h]

/-- After a zero-fill the offsets below n hold 0, the others what they held. -/
theorem written_zeroFill (m : Memory) (n a : Nat) :
    (Memory.zeroFill m n).written a = if a < n then some 0#8 else m.written a := by
  unfold Memory.zeroFill
  by_cases h : a < n
  · rw [written_append_of_some _ _ _ 0#8 (by rw [written_zeros]; simp [h])]; simp [h]
  · rw [written_append_of_none _ _ _ (by rw [written_zeros]; simp [h]), written_filter_ge]
    simp [h, show n ≤ a by omega]

/-! The canonical form -/

/-- The canonical form says that the list of offsets is strictly rising. -/
theorem wf_iff_pairwise (m : Memory) : Memory.wf m = true ↔ (m.map Prod.fst).Pairwise (· < ·) := by
  induction m with
  | nil => simp [Memory.wf]
  | cons x rest ih =>
    cases rest with
    | nil => simp [Memory.wf]
    | cons y rest =>
      obtain ⟨a, u⟩ := x
      obtain ⟨b, v⟩ := y
      simp only [Memory.wf, Bool.and_eq_true, decide_eq_true_eq, ih]
      simp only [List.map_cons, List.pairwise_cons, List.mem_cons]
      constructor
      · rintro ⟨h, h2, h3⟩
        refine ⟨?_, h2, h3⟩
        rintro c (rfl | hc)
        · exact h
        · exact lt_trans h (h2 c hc)
      · rintro ⟨h, h2⟩
        exact ⟨h b (Or.inl rfl), h2⟩

/-- The offsets after a byte is written are those before it, and the byte's. -/
theorem mem_offsets_set (m : Memory) (a : Nat) (v : Byte) (b : Nat) :
    b ∈ (Memory.set m a v).map Prod.fst ↔ b = a ∨ b ∈ m.map Prod.fst := by
  induction m with
  | nil => simp [Memory.set]
  | cons x rest ih =>
    obtain ⟨k, u⟩ := x
    simp only [Memory.set]
    split
    · simp
    · split
      · next h => subst h; simp
      · simp only [List.map_cons, List.mem_cons, ih]; tauto

theorem wf_set (m : Memory) (a : Nat) (v : Byte) (h : m.wf = true) : (Memory.set m a v).wf = true := by
  rw [wf_iff_pairwise] at h ⊢
  induction m with
  | nil => simp [Memory.set]
  | cons x rest ih =>
    obtain ⟨k, u⟩ := x
    simp only [List.map_cons, List.pairwise_cons] at h
    simp only [Memory.set]
    split
    · next hlt =>
      simp only [List.map_cons, List.pairwise_cons, List.mem_cons]
      refine ⟨?_, h⟩
      rintro c (rfl | hc)
      · exact hlt
      · exact lt_trans hlt (h.1 c hc)
    · split
      · next heq => subst heq; simpa using h
      · next h1 h2 =>
        simp only [List.map_cons, List.pairwise_cons]
        refine ⟨fun c hc => ?_, ih h.2⟩
        rcases (mem_offsets_set rest a v c).1 hc with rfl | hc
        · omega
        · exact h.1 c hc

theorem wf_setBytes (m : Memory) (a n : Nat) (v : Word) (h : m.wf = true) : (Memory.setBytes m a n v).wf = true := by
  induction n generalizing m a v with
  | zero => exact h
  | succ k ih => exact ih _ _ _ (wf_set _ _ _ h)

theorem wf_zeroFill (m : Memory) (n : Nat) (h : m.wf = true) : (Memory.zeroFill m n).wf = true := by
  rw [wf_iff_pairwise] at h ⊢
  unfold Memory.zeroFill
  rw [List.map_append, List.pairwise_append]
  refine ⟨?_, ?_, ?_⟩
  · rw [List.map_map]; simpa [Function.comp_def] using List.pairwise_lt_range
  · exact h.sublist (List.filter_sublist.map _)
  · intro a ha b hb
    simp only [List.map_map, List.mem_map, List.mem_range, Function.comp] at ha
    simp only [List.mem_map, List.mem_filter, decide_eq_true_eq] at hb
    obtain ⟨_, ha, rfl⟩ := ha
    obtain ⟨x, ⟨-, hx⟩, rfl⟩ := hb
    omega

theorem below_iff (m : Memory) (n : Nat) : m.below n = true ↔ ∀ b ∈ m.map Prod.fst, b < n := by
  simp [Memory.below]

theorem below_set (m : Memory) (a n : Nat) (v : Byte) (h : m.below n = true) (ha : a < n) :
    (Memory.set m a v).below n = true := by
  rw [below_iff] at h ⊢
  intro b hb
  rcases (mem_offsets_set m a v b).1 hb with rfl | hb
  · exact ha
  · exact h b hb

theorem below_setBytes (m : Memory) (a k n : Nat) (v : Word) (h : m.below n = true) (ha : a + k ≤ n) :
    (Memory.setBytes m a k v).below n = true := by
  induction k generalizing m a v with
  | zero => exact h
  | succ k ih => exact ih _ _ _ (below_set _ _ _ _ h (by omega)) (by omega)

theorem below_zeroFill (m : Memory) (k n : Nat) (h : m.below n = true) (hk : k ≤ n) :
    (Memory.zeroFill m k).below n = true := by
  rw [below_iff] at h ⊢
  intro b hb
  simp only [Memory.zeroFill, List.map_append, List.map_map, List.mem_append, List.mem_map, List.mem_range,
    Function.comp, List.mem_filter] at hb
  rcases hb with ⟨x, hx, rfl⟩ | ⟨x, ⟨hx, -⟩, rfl⟩
  · omega
  · exact h _ (List.mem_map_of_mem hx)

/-! Reading cells -/

theorem setDescAt_descByte_same (s : State) (r c : Nat) (v : Byte) :
    (s.setDescAt r c v).descByte (s.cellOffset r c) = v := by
  simp [State.descByte, State.setDescAt, written_set_same]

theorem setDescAt_descByte_other (s : State) (r c a : Nat) (v : Byte) (h : a ≠ s.cellOffset r c) :
    (s.setDescAt r c v).descByte a = s.descByte a := by
  simp [State.descByte, State.setDescAt, written_set_other _ _ _ _ h]

theorem zeroFillDesc_descByte (s : State) (a : Nat) :
    s.zeroFillDesc.descByte a = if a < s.height * s.width then 0#8 else s.descByte a := by
  simp only [State.descByte, State.zeroFillDesc, written_zeroFill]
  split <;> rfl

end Sys2Proof.Laws
end

