-- ==== Sys2Proof/Laws/PerInstr.lean ====
section
/-!
SUPPORT. What holds of every command as syntax, one lemma for each: it is well formed, its word has its operation in [7:0] and the
reserved bits clear (30_encoding.md R121, R127, R128).
-/
namespace Sys2Proof.Laws

open Sys2Proof

/-- The command is well formed, and its word carries its OPC value with [63:14] = 0. -/
def Encoding.Statement (i : Instr) : Prop :=
  i.wf = true ∧ fieldOpc (encode i) = opcValue i.fields.opc ∧ fieldRsv (encode i) = 0

theorem Encoding.nop : Encoding.Statement .nop := by unfold Encoding.Statement; decide
theorem Encoding.lbpN : Encoding.Statement .lbpN := by unfold Encoding.Statement; decide
theorem Encoding.lbpB : Encoding.Statement .lbpB := by unfold Encoding.Statement; decide
theorem Encoding.rilbp : Encoding.Statement .rilbp := by unfold Encoding.Statement; decide
theorem Encoding.ulbp : Encoding.Statement .ulbp := by unfold Encoding.Statement; decide
theorem Encoding.albpN : Encoding.Statement .albpN := by unfold Encoding.Statement; decide
theorem Encoding.albpB : Encoding.Statement .albpB := by unfold Encoding.Statement; decide
theorem Encoding.ripass : Encoding.Statement .ripass := by unfold Encoding.Statement; decide
theorem Encoding.sampleN : Encoding.Statement .sampleN := by unfold Encoding.Statement; decide
theorem Encoding.sampleB : Encoding.Statement .sampleB := by unfold Encoding.Statement; decide
theorem Encoding.sampleT : Encoding.Statement .sampleT := by unfold Encoding.Statement; decide
theorem Encoding.encodeTM : Encoding.Statement .encodeTM := by unfold Encoding.Statement; decide
theorem Encoding.encodeBM : Encoding.Statement .encodeBM := by unfold Encoding.Statement; decide
theorem Encoding.encodeTL : Encoding.Statement .encodeTL := by unfold Encoding.Statement; decide
theorem Encoding.encodeBL : Encoding.Statement .encodeBL := by unfold Encoding.Statement; decide
theorem Encoding.bandcmp : Encoding.Statement .bandcmp := by unfold Encoding.Statement; decide
theorem Encoding.rimin : Encoding.Statement .rimin := by unfold Encoding.Statement; decide
theorem Encoding.uclass : Encoding.Statement .uclass := by unfold Encoding.Statement; decide
theorem Encoding.pixelLbpN : Encoding.Statement .pixelLbpN := by unfold Encoding.Statement; decide
theorem Encoding.pixelLbpB : Encoding.Statement .pixelLbpB := by unfold Encoding.Statement; decide
theorem Encoding.pixelRilbp : Encoding.Statement .pixelRilbp := by unfold Encoding.Statement; decide
theorem Encoding.pixelUlbp : Encoding.Statement .pixelUlbp := by unfold Encoding.Statement; decide
theorem Encoding.pixelAlbpN : Encoding.Statement .pixelAlbpN := by unfold Encoding.Statement; decide
theorem Encoding.pixelAlbpB : Encoding.Statement .pixelAlbpB := by unfold Encoding.Statement; decide

end Sys2Proof.Laws
end

