-- ==== Sys2Proof/Laws/Step.lean ====
section
/-!
SUPPORT. What one host access and one step can do, said once.
-/
namespace Sys2Proof.Laws

open Sys2Proof Sys2Proof.Machine

/-- One host access: it is refused and changes nothing, or reads a register, or reads bytes, or writes a register that is not
locked, or writes bytes while BUSY = 0. -/
theorem hostAccess_cases (a : Access) (s : State) :
    (hostAccess a s = (s, .busError)) ∨
    (∃ w o r, a = .read w o ∧ target s w o = .csr r ∧ hostAccess a s = (s, .data (s.readCsr r))) ∨
    (∃ w o b k, a = .read w o ∧ target s w o = .bytes b k ∧
      hostAccess a s = (s.countDraw b, .data (s.readBytes b k w))) ∨
    (∃ w o v r, a = .write w o v ∧ target s w o = .csr r ∧ (s.busy && r.locked) = false ∧
      hostAccess a s = (s.writeCsr r v, .accepted)) ∨
    (∃ w o v b k, a = .write w o v ∧ target s w o = .bytes b k ∧ s.busy = false ∧
      hostAccess a s = (s.writeBytes b k w v, .accepted)) := by
  cases a with
  | read w o =>
    cases h : target s w o with
    | none => exact .inl (by simp [hostAccess, h])
    | csr r => exact .inr (.inl ⟨w, o, r, rfl, h, by simp [hostAccess, h]⟩)
    | bytes b k => exact .inr (.inr (.inl ⟨w, o, b, k, rfl, h, by simp [hostAccess, h]⟩))
  | write w o v =>
    cases h : target s w o with
    | none => exact .inl (by simp [hostAccess, h])
    | csr r =>
      cases hl : s.busy && r.locked with
      | true => exact .inl (by simp only [hostAccess, h, hl]; rfl)
      | false => exact .inr (.inr (.inr (.inl ⟨w, o, v, r, rfl, h, hl, by simp only [hostAccess, h, hl]; rfl⟩)))
    | bytes b k =>
      cases hb : s.busy with
      | true => exact .inl (by simp [hostAccess, h, hb])
      | false => exact .inr (.inr (.inr (.inr ⟨w, o, v, b, k, rfl, h, rfl, by simp [hostAccess, h, hb]⟩)))

/-- What a target of bytes says of the access: a width of 1, 2, 4 or 8, aligned, all bytes below MAXPIX. -/
theorem target_bytes (s : State) (w : Nat) (o : Offset) (b : Buffer) (k : Nat) (h : target s w o = .bytes b k) :
    widthOk w = true ∧ k % w = 0 ∧ k + w ≤ s.maxPix := by
  have hw : ∀ k', windowOk s w k' = true → widthOk w = true ∧ k' % w = 0 ∧ k' + w ≤ s.maxPix := by
    intro k' hk
    simpa [windowOk, Bool.and_eq_true, and_assoc] using hk
  unfold target at h
  simp only at h
  split at h
  · split at h
    · split at h <;> simp at h
    · simp at h
  · split at h
    · simp at h
    · split at h
      · split at h
        · next hk => simp only [Target.bytes.injEq] at h; exact h.2 ▸ hw _ hk
        · simp at h
      · split at h
        · split at h
          · next hk => simp only [Target.bytes.injEq] at h; exact h.2 ▸ hw _ hk
          · simp at h
        · simp at h

/-- Every command answers a next state. -/
theorem exec_next (i : Instr) (s : State) : ∃ t, exec i s = .next t := by
  cases i <;> exact ⟨_, rfl⟩

/-- exec runs the plan of its command to the end. -/
theorem exec_eq_runPlan (i : Instr) (s : State) : exec i s = runPlan (planOf i) s := by
  cases i <;> rfl

/-- The command in flight runs to its end under the plan of the word in CMD. -/
theorem runCommand_eq_runPlan (s : State) : runCommand s = runPlan (planOfWord s.cmd) s := by
  unfold runCommand
  split
  · next h => rw [runPlan, runSteps_idle _ _ _ h]
  · unfold planOfWord
    cases decode s.cmd with
    | ok i => exact exec_eq_runPlan i s
    | error _ => rfl

/-- A step answers a next state, by one event or by the run of the command in flight. -/
theorem step_cases (s : State) :
    (s.agenda = [] ∧ step s = runCommand s) ∨
    (∃ rest, s.agenda = .run :: rest ∧ step s = runCommand { s with agenda := rest }) ∨
    (∃ rest, s.agenda = .core :: rest ∧
      step s = .next (coreStep (planOfWord s.cmd) { s with agenda := rest })) ∨
    (∃ rest a, s.agenda = .access a :: rest ∧ step s = .next (State.access a { s with agenda := rest })) ∨
    (∃ rest, s.agenda = .reset :: rest ∧ step s = .next (State.resetPulse { s with agenda := rest })) := by
  cases h : s.agenda with
  | nil => exact .inl ⟨rfl, by simp [step, h]⟩
  | cons e rest =>
    cases e with
    | access a => exact .inr (.inr (.inr (.inl ⟨rest, a, rfl, by simp [step, h]⟩)))
    | core => exact .inr (.inr (.inl ⟨rest, rfl, by simp [step, h]⟩))
    | run => exact .inr (.inl ⟨rest, rfl, by simp [step, h]⟩)
    | reset => exact .inr (.inr (.inr (.inr ⟨rest, rfl, by simp [step, h]⟩)))

end Sys2Proof.Laws
end

