-- ==== Sys2Proof/Tests/Slice0.lean ====
section
/-!
SUPPORT. Tests. Words are put together from 30_encoding.md R121 and R122, expected values are those of the worked examples and of
95_test_vectors.md. The witness_ theorems show for a statement of Certificates/Slice0/Obligations.lean a state and operands that
meet its hypotheses.
-/
namespace Sys2Proof.Tests

open Sys2Proof Sys2Proof.Machine

set_option maxRecDepth 20000

/-! The smoke test of WellFormed: an ill-formed term for each check -/

theorem test_smode_refused : Fields.wf { opc := .rilbp, smode := .bilinear } = false := by decide
theorem test_smode_truncate_refused : Fields.wf { opc := .pixel, smode := .truncate } = false := by decide
theorem test_smode_pixel_ulbp_refused : Fields.wf { opc := .pixel, smode := .bilinear, var := .ulbp } = false := by decide
theorem test_rule_refused : Fields.wf { opc := .lbp, rule := .band } = false := by decide
theorem test_order_refused : Fields.wf { opc := .bandcmp, order := .lsbFirst } = false := by decide
theorem test_var_refused : Fields.wf { opc := .sample, var := .albp } = false := by decide

/-! Decoding. Words as VAR_ORDER_RULE_SMODE_OPC -/

theorem test_decode_nop : decode 0b00_0_0_00_00000000#64 = .ok .nop := by decide
theorem test_decode_lbp :
    decode 0b00_0_0_00_00000001#64 = .ok .lbpN ∧ decode 0b00_0_0_01_00000001#64 = .ok .lbpB := by decide
theorem test_decode_rilbp_ulbp :
    decode 0b00_0_0_00_00000010#64 = .ok .rilbp ∧ decode 0b00_0_0_00_00000011#64 = .ok .ulbp := by decide
theorem test_decode_albp :
    decode 0b00_0_0_00_00000100#64 = .ok .albpN ∧ decode 0b00_0_0_01_00000100#64 = .ok .albpB := by decide
theorem test_decode_ripass : decode 0b00_0_0_00_00000101#64 = .ok .ripass := by decide
theorem test_decode_sample :
    decode 0b00_0_0_00_00010000#64 = .ok .sampleN ∧ decode 0b00_0_0_01_00010000#64 = .ok .sampleB ∧
      decode 0b00_0_0_10_00010000#64 = .ok .sampleT := by decide
theorem test_decode_encode :
    decode 0b00_0_0_00_00010001#64 = .ok .encodeTM ∧ decode 0b00_0_1_00_00010001#64 = .ok .encodeBM ∧
      decode 0b00_1_0_00_00010001#64 = .ok .encodeTL ∧ decode 0b00_1_1_00_00010001#64 = .ok .encodeBL := by decide
theorem test_decode_codes :
    decode 0b00_0_0_00_00010010#64 = .ok .bandcmp ∧ decode 0b00_0_0_00_00010011#64 = .ok .rimin ∧
      decode 0b00_0_0_00_00010100#64 = .ok .uclass := by decide
theorem test_decode_pixel :
    decode 0b00_0_0_00_00011000#64 = .ok .pixelLbpN ∧ decode 0b00_0_0_01_00011000#64 = .ok .pixelLbpB ∧
      decode 0b01_0_0_00_00011000#64 = .ok .pixelRilbp ∧ decode 0b10_0_0_00_00011000#64 = .ok .pixelUlbp ∧
      decode 0b11_0_0_00_00011000#64 = .ok .pixelAlbpN ∧ decode 0b11_0_0_01_00011000#64 = .ok .pixelAlbpB := by decide
theorem test_decode_refused :
    decode 0b1_00_0_0_00_00000000#64 = .error .reservedBits ∧ decode 0x8000000000000000#64 = .error .reservedBits ∧
      decode 0x06#64 = .error .unknownOpc ∧ decode 0x15#64 = .error .unknownOpc ∧ decode 0xFF#64 = .error .unknownOpc ∧
      decode 0x310#64 = .error .reservedSmode ∧ decode 0x201#64 = .error .fieldNotTaken ∧
      decode 0x1118#64 = .error .fieldNotTaken ∧ decode 0x412#64 = .error .fieldNotTaken := by decide

/-! A small state: the 3×3 image of 43_pipeline.md R237, P = 8, R = 1, B = 0.1, the reference trig values -/

/-- The image [10,20,30], [40,50,60], [70,80,90]. -/
def img3 : Memory := [(0, 10), (1, 20), (2, 30), (3, 40), (4, 50), (5, 60), (6, 70), (7, 80), (8, 90)]

/-- The set-up state, idle. -/
def small : State := { State.reset with img := img3, dim := 0x00030003, trig := Config.trigTable }

/-- The command just issued, with operands. -/
def given (i : Instr) (a0 a1 : Word) : State := { small.given i with arg0 := a0, arg1 := a1 }

/-- The next state of an outcome. -/
def after (o : Host.Outcome State Fault Refusal) : State :=
  match o with
  | .next s => s
  | _ => State.reset

/-- The operand word of pixel (1, 1) and sample p. -/
def centre (p : Nat) : Word := BitVec.ofNat 64 (p * 2 ^ 32 + 0x10001)

/-- Samples 60, 40, 50, 49, 51, 0, 255, 50.0 as in the worked example of 42_encoder.md R207. -/
def encodeSamplesState (i : Instr) : State :=
  { given i 0 50 with
    sregs := #v[0x404E000000000000, 0x4044000000000000, 0x4049000000000000, 0x4048800000000000, 0x4049800000000000, 0,
                0x406FE00000000000, 0x4049000000000000] }

/-! One command each -/

-- 43_pipeline.md R236: STATUS reads 2 after NOP, with CTRL = 0 too
theorem test_nop : (after (exec .nop { given .nop 0 0 with ctrl := 0 })).statusWord = 2#64 := by decide
-- 43_pipeline.md R237: DESC[1,1] = 240, the rest 0
theorem test_lbpN : (after (exec .lbpN (given .lbpN 0 0))).desc =
    [(0, 0), (1, 0), (2, 0), (3, 0), (4, 240), (5, 0), (6, 0), (7, 0), (8, 0)] := by decide
-- 43_pipeline.md R238, pass 1: 240
theorem test_lbpB : (after (exec .lbpB (given .lbpB 0 0))).descByte 4 = 240#8 := by decide
-- 43_pipeline.md R238: 15, PROGRESS 2
theorem test_rilbp : (after (exec .rilbp (given .rilbp 0 0))).descByte 4 = 15#8 := by decide
theorem test_rilbp_progress : (after (exec .rilbp (given .rilbp 0 0))).progress = 2#64 := by decide
-- 43_pipeline.md R239: 7
theorem test_ulbp : (after (exec .ulbp (given .ulbp 0 0))).descByte 4 = 7#8 := by decide
-- 43_pipeline.md R240: 0 with centre 50, 128 with centre 62
theorem test_albpN : (after (exec .albpN (given .albpN 0 0))).descByte 4 = 0#8 := by decide
theorem test_albpN_62 :
    (after (exec .albpN { given .albpN 0 0 with img := Memory.set img3 4 62 })).descByte 4 = 128#8 := by decide
-- 95_test_vectors.md §5.2: PIXEL.ALBP.B gives 0 at IMG3
theorem test_albpB : (after (exec .albpB (given .albpB 0 0))).descByte 4 = 0#8 := by decide
-- 44_rotation.md R283: DESC[4] = 0xF0 becomes 0x0F, the others stay
theorem test_ripass : (after (exec .ripass { given .ripass 0 0 with desc := [(3, 0xF0), (4, 0xF0), (9, 0xF0)] })).desc =
    [(3, 0xF0), (4, 0x0F), (9, 0xF0)] := by decide
-- 43_pipeline.md R237: the samples 60 and 90 of the nearest mode
theorem test_sampleN : (after (exec .sampleN (given .sampleN (centre 1) 0))).result = 0x4056800000000000#64 := by decide
-- 43_pipeline.md R238: sample 4 of the bilinear mode is 40.00000000000001
theorem test_sampleB : (after (exec .sampleB (given .sampleB (centre 4) 0))).sreg 4 = 0x4044000000000001#64 := by decide
-- 43_pipeline.md R239: the truncated samples 50 (p = 1) and 20 (p = 7)
theorem test_sampleT : (after (exec .sampleT (given .sampleT (centre 1) 0))).result = 0x4049000000000000#64 := by decide
theorem test_sampleT_7 : (after (exec .sampleT (given .sampleT (centre 7) 0))).sreg 7 = 0x4034000000000000#64 := by decide
-- 42_encoder.md R207: 171 and 213
theorem test_encodeTM : (after (exec .encodeTM (encodeSamplesState .encodeTM))).result = 171#64 := by decide
theorem test_encodeTL : (after (exec .encodeTL (encodeSamplesState .encodeTL))).result = 213#64 := by decide
-- 42_encoder.md R202 by hand: the band of 50 is [45.0, 55.00000000000001], so bits 0,0,1,1,1,0,0,1
theorem test_encodeBM : (after (exec .encodeBM (encodeSamplesState .encodeBM))).result = 0b00111001#64 := by decide
theorem test_encodeBL : (after (exec .encodeBL (encodeSamplesState .encodeBL))).result = 0b10011100#64 := by decide
-- 42_encoder.md R208: centre 100, 105.0 gives 1 and 115.0 gives 0
theorem test_bandcmp_in : (after (exec .bandcmp { given .bandcmp 0 0x64 with
    sregs := #v[0x405A400000000000, 0, 0, 0, 0, 0, 0, 0] })).result = 1#64 := by decide
theorem test_bandcmp_out : (after (exec .bandcmp { given .bandcmp 0 0x64 with
    sregs := #v[0x405CC00000000000, 0, 0, 0, 0, 0, 0, 0], result := 7 })).result = 0#64 := by decide
-- 44_rotation.md R282 and R281: 24 gives 3 with P = 8, 0x80 gives 1 with P = 4
theorem test_rimin : (after (exec .rimin (given .rimin 0 0x18))).result = 3#64 := by decide
theorem test_rimin_4 : (after (exec .rimin { given .rimin 0 0x80 with ctrl := 0x104 })).result = 1#64 := by decide
-- 45_uniformity.md R302: 0x55 gives 9 with P = 8, 9 gives 5 with P = 4
theorem test_uclass : (after (exec .uclass (given .uclass 0 0x55))).result = 9#64 := by decide
theorem test_uclass_4 : (after (exec .uclass { given .uclass 0 9 with ctrl := 0x104 })).result = 5#64 := by decide
-- 43_pipeline.md R241: pixel (0, 0) meets (1, −1) at sample 3
theorem test_pixelLbpN_bounds :
    (after (exec .pixelLbpN (given .pixelLbpN 0 0))).errinfo = 0x0003FFFFFF000001#64 := by decide
theorem test_pixelLbpN : (after (exec .pixelLbpN (given .pixelLbpN (centre 0) 0))).result = 240#64 := by decide
theorem test_pixelLbpB : (after (exec .pixelLbpB (given .pixelLbpB (centre 0) 0))).result = 240#64 := by decide
-- 95_test_vectors.md §2.5: a centre outside the image
theorem test_pixelLbpB_centre :
    (after (exec .pixelLbpB (given .pixelLbpB 0x30003 0))).errinfo = 0x00FF000003000003#64 := by decide
theorem test_pixelRilbp : (after (exec .pixelRilbp (given .pixelRilbp (centre 0) 0))).result = 15#64 := by decide
-- 43_pipeline.md R241: PIXEL.ULBP gives 7 and leaves 60,50,80,40,40,10,10,20
theorem test_pixelUlbp : (after (exec .pixelUlbp (given .pixelUlbp (centre 0) 0))).result = 7#64 := by decide
theorem test_pixelUlbp_samples :
    (after (exec .pixelUlbp (given .pixelUlbp (centre 0) 0))).sreg 1 = 0x4049000000000000#64 ∧
      (after (exec .pixelUlbp (given .pixelUlbp (centre 0) 0))).sreg 7 = 0x4034000000000000#64 := by decide
theorem test_pixelAlbpN : (after (exec .pixelAlbpN { given .pixelAlbpN (centre 0) 0 with
    img := Memory.set img3 4 62 })).result = 128#64 := by decide
theorem test_pixelAlbpB : (after (exec .pixelAlbpB (given .pixelAlbpB (centre 0) 0))).result = 0#64 := by decide

/-! The check stage, the bus, reset -/

-- 60_exceptions.md R328: P = 9 and R = 0 is ECONFIG, P = 9 and R = 1 is EOVERFLOW
theorem test_priority : (after (exec .lbpN { given .lbpN 0 0 with ctrl := 0x009 })).ecode = .econfig ∧
    (after (exec .lbpN { given .lbpN 0 0 with ctrl := 0x109 })).ecode = .eoverflow := by decide
-- 60_exceptions.md R324
theorem test_operand : (after (exec .sampleN (given .sampleN (centre 8) 0))).ecode = .eoperand ∧
    (after (exec .rimin (given .rimin 0 0x100))).ecode = .eoperand := by decide
-- 30_encoding.md R132
theorem test_illegal_step : (after (step (State.reset.withFetchWord 64 0x0301))).ecode = .eillegal := by decide
-- 10_state.md R31, R32
theorem test_id : hostAccess (.read 8 0#18) small = (small, .data 0x000000074C425043#64) := by decide
theorem test_ctrl_reserved : (hostAccess (.write 8 0x08#18 0xFFFFFFFFFFFFFFFF#64) small).1.ctrl = 0x1FFFF#64 := by decide
-- 20_memory.md R83
theorem test_little_endian :
    (hostAccess (.write 2 0x10004#18 0x1234#64) small).1.imgByte 5 = 0x12#8 ∧
      (hostAccess (.read 2 0x10004#18) small).2 = .data 0x3C32#64 := by decide
-- 20_memory.md R87
theorem test_busy_refuses : hostAccess (.write 1 0x10000#18 1#64) (given .nop 0 0) = (given .nop 0 0, .busError) := by decide
-- 70_reset_and_hazards.md R371
theorem test_reset_in_flight :
    (after (step { given .lbpN 0 0 with agenda := [.reset] })).readCsr .status = 0#64 ∧
      (after (step { given .lbpN 0 0 with agenda := [.reset] })).flight.phase = .idle := by decide

/-! Witnesses: a state and operands that meet the hypotheses of each statement -/

/-- A state in which a list of events waits. -/
def waiting (l : List Event) (s : State) : State := { s with agenda := l }

/-- A good state in the last core step of SAMPLE.N, with its result pending. -/
def completing : State :=
  { given .sampleN (centre 1) 0 with
    flight := { phase := .complete, pending := { result := some 5, samples := [(1, 5)] } }, agenda := [.core] }

/-- RILBP after its first pass, and in its second. -/
def afterPass1 : State :=
  { given .rilbp 0 0 with progress := 1, desc := [(4, 240)], flight := { phase := .pass1, row := 2, col := 1 }, agenda := [.core] }

def inPass2 : State :=
  { afterPass1 with flight := { phase := .pass2, row := 1, col := 1, pass1Done := true } }

/-- A trig parameter outside R10: sinF(0) = 2. P = 1. -/
def badTrig (i : Instr) : State :=
  { given i 0 0 with trig := [⟨0, 0x4000000000000000, 0x3FF0000000000000⟩], ctrl := 0x101 }

/-- The small state with P = 1. -/
def onePoint (i : Instr) : State := { given i 0 0 with ctrl := 0x101 }

theorem interior_small (r c : Nat) (s : State) (hd : s.dim = 0x00030003#64) (hr : s.cfgR = 1)
    (h : s.inInterior r c = true) : r = 1 ∧ c = 1 := by
  have hh : s.height = 3 := by unfold State.height; rw [hd]; decide
  have hw : s.width = 3 := by unfold State.width; rw [hd]; decide
  simp only [State.inInterior, hh, hw, hr, Bool.and_eq_true, decide_eq_true_eq] at h
  omega

theorem witness_LegalWordsAreTheTable :
    (0x4000#64 : Word).extractLsb' 14 50 ≠ 0#50 ∧ (0x8000000000000000#64 : Word).extractLsb' 14 50 ≠ 0#50 ∧
      (waiting [] (small.issue 6)).issued ∧ (waiting [] (small.issue 6)).agenda = [] ∧
      ∀ i, (i, (waiting [] (small.issue 6)).cmd) ∉ opcodeRows :=
  ⟨by decide, by decide, by unfold State.issued; decide, by decide, by intro i; cases i <;> decide⟩

theorem witness_StepRunsDecodedCommand :
    (given .rimin 0 0).flight.phase ≠ .idle ∧ decode (given .rimin 0 0).cmd = .ok .rimin ∧ (given .rimin 0 0).agenda = [] ∧
      (waiting [.run, .core] (given .rimin 0 0)).agenda = .run :: [.core] ∧
      (waiting [.access (.read 8 0)] small).agenda = .access (.read 8 0) :: [] := by decide

theorem witness_CmdWriteIssues : small.busy = false ∧ (given .nop 0 0).busy = true := by decide

theorem witness_ChecksInFixedOrder :
    ((small.issue 6).issued ∧ decode (small.issue 6).cmd = .error .unknownOpc) ∧
    (Instr.lbpN.configBad { given .lbpN 0 0 with ctrl := 0x009 }) ∧
    (¬ Instr.lbpN.configBad { given .lbpN 0 0 with ctrl := 0x109 } ∧
      Instr.lbpN.widthBad { given .lbpN 0 0 with ctrl := 0x109 }) ∧
    (¬ Instr.sampleN.configBad (given .sampleN (centre 8) 0) ∧ ¬ Instr.sampleN.widthBad (given .sampleN (centre 8) 0) ∧
      Instr.sampleN.operandFault (given .sampleN (centre 8) 0)) ∧
    Instr.sampleN.accepts (given .sampleN (centre 7) 0) ∧ (given .sampleN (centre 7) 0).issued := by
  simp only [Laws.configBad_iff, Laws.widthBad_iff, Laws.operandFault_iff, Laws.accepts_iff, State.issued]
  decide

theorem witness_EveryCommandCompletes : (given .nop 0 0).flight.phase ≠ .idle ∧ inPass2.flight.phase ≠ .idle := by decide

theorem witness_InterleavingDoesNotMatter :
    (∀ e ∈ [Event.core, .access (.read 8 0x28)], e = .core ∨ ∃ w o, e = .access (.read w o)) ∧
      ∃ u, step { given .lbpN 0 0 with agenda := [.run] } = .next u :=
  ⟨by simp, _, rfl⟩

/-- The hypotheses of ResultsOnlyAtCompletion. -/
def ChangesResults (s : State) : Prop :=
  s.wf = true ∧ step s = .next (after (step s)) ∧
    ((after (step s)).result ≠ s.result ∨ (after (step s)).sregs ≠ s.sregs)

/-- One good state for each way RESULT or S changes: a core step, a run, a step with no event waiting, a write of S7, a reset. -/
theorem witness_ResultsOnlyAtCompletion :
    ChangesResults completing ∧ ChangesResults (waiting [.run] (given .rimin 0 0x18)) ∧
      ChangesResults (given .rimin 0 0x18) ∧ ChangesResults (waiting [.access (.write 8 0xB8#18 5#64)] small) ∧
      ChangesResults (waiting [.reset] { small with result := 7 }) :=
  ⟨⟨by decide, rfl, by decide⟩, ⟨by decide, rfl, by decide⟩, ⟨by decide, rfl, by decide⟩, ⟨by decide, rfl, by decide⟩,
    ⟨by decide, rfl, by decide⟩⟩

theorem witness_NopCompletes :
    (given .nop 0 0).issued ∧ (0x100#64 : Word).extractLsb' 0 8 = 0#8 ∧ (0x100#64 : Word) ≠ 0#64 := by
  unfold State.issued; decide

theorem witness_SampleReadsItsPlaces :
    (readPlaces .bilinear (sampleX small 1 1) (sampleY small 1 1)).find? (fun q => !small.inImage q.1 q.2) = none ∧
      (readPlaces .bilinear (sampleX small 0 3) (sampleY small 0 3)).find? (fun q => !small.inImage q.1 q.2) = some (0, -1) := by
  decide

theorem witness_SampleCommandResult :
    (Instr.sampleB, Mode.bilinear) ∈ sampleForms ∧ (given .sampleB (centre 7) 0).issued ∧
      Instr.sampleB.accepts (given .sampleB (centre 7) 0) ∧
      (∃ v, sample (given .sampleB (centre 7) 0) .bilinear 1 1 7 = .ok v) ∧
      Instr.sampleT.accepts (given .sampleT 0x0500000000 0) ∧
      ∃ o, sample (given .sampleB 0x0500000000 0) .bilinear 0 0 5 = .error o := by
  rw [Laws.accepts_iff, Laws.accepts_iff]
  exact ⟨by decide, by unfold State.issued; decide, by decide, ⟨_, rfl⟩, by decide, ⟨_, rfl⟩⟩

theorem witness_EncodeCommandResult :
    (Instr.encodeBL, Rule.band, Order.lsbFirst) ∈ encodeForms ∧ (encodeSamplesState .encodeBL).issued ∧
      Instr.encodeBL.accepts (encodeSamplesState .encodeBL) ∧ Instr.encodeTM.accepts (onePoint .encodeTM) := by
  rw [Laws.accepts_iff, Laws.accepts_iff]
  exact ⟨by decide, by unfold State.issued; decide, by decide, by decide⟩

theorem witness_BandcmpResult :
    (given .bandcmp 0 0x7FF).issued ∧ Instr.bandcmp.accepts { given .bandcmp 0 0x7FF with ctrl := 0 } := by
  rw [Laws.accepts_iff]; exact ⟨by unfold State.issued; decide, by decide⟩

theorem witness_RiminResult :
    (given .rimin 0 0xFF).issued ∧ Instr.rimin.accepts (given .rimin 0 0xFF) ∧ Instr.rimin.accepts (onePoint .rimin) := by
  rw [Laws.accepts_iff, Laws.accepts_iff]; exact ⟨by unfold State.issued; decide, by decide, by decide⟩

theorem witness_UclassResult :
    (given .uclass 0 0xFF).issued ∧ Instr.uclass.accepts (given .uclass 0 0xFF) ∧ Instr.uclass.accepts (onePoint .uclass) := by
  rw [Laws.accepts_iff, Laws.accepts_iff]; exact ⟨by unfold State.issued; decide, by decide, by decide⟩

theorem witness_PixelDescriptor :
    1 ≤ small.cfgP ∧ small.cfgP ≤ 8 ∧ (onePoint .pixelUlbp).cfgP = 1 ∧
      (∃ d, describe .rilbp .nearest small 1 1 = .ok d) ∧ (∃ o, describe .lbp .nearest small 0 0 = .error o) ∧
      describe .albp .bilinear small 3 3 = .error ⟨3, 3, 0xFF⟩ :=
  ⟨by decide, by decide, by decide, ⟨_, rfl⟩, ⟨_, rfl⟩, by decide⟩

theorem witness_FirstFailingTest :
    (Instr.pixelLbpN, Variant.lbp, Mode.nearest) ∈ pixelForms ∧ (given .pixelLbpN 0 0).issued ∧
      Instr.pixelLbpN.accepts (given .pixelLbpN 0x30003 0) ∧
      (given .pixelLbpN 0x30003 0).inImage (given .pixelLbpN 0x30003 0).argRow (given .pixelLbpN 0x30003 0).argCol = false ∧
      Instr.pixelLbpN.accepts (given .pixelLbpN 0 0) ∧ (given .pixelLbpN 0 0).inImage 0 0 = true ∧
      sample (given .pixelLbpN 0 0) (modeOf .lbp .nearest) 0 0 3 = .error ⟨1, -1, 3⟩ ∧
      (∀ q < 3, ∃ x, sample (given .pixelLbpN 0 0) (modeOf .lbp .nearest) 0 0 q = .ok x) := by
  rw [Laws.accepts_iff, Laws.accepts_iff]
  refine ⟨by decide, by unfold State.issued; decide, by decide, by decide, by decide, by decide, by decide, ?_⟩
  intro q hq
  interval_cases q <;> exact ⟨_, rfl⟩

theorem witness_PixelCommandResult :
    (Instr.pixelUlbp, Variant.ulbp, Mode.truncate) ∈ pixelForms ∧ (given .pixelUlbp (centre 0) 0).issued ∧
      Instr.pixelUlbp.accepts (given .pixelUlbp (centre 0) 0) ∧
      ∃ d, describe .ulbp .truncate (given .pixelUlbp (centre 0) 0) 1 1 = .ok d := by
  rw [Laws.accepts_iff]; exact ⟨by decide, by unfold State.issued; decide, by decide, ⟨_, rfl⟩⟩

theorem witness_ThresholdRule :
    isFinite 0x8000000000000000#64 = true ∧ isFinite 0x7FEFFFFFFFFFFFFF#64 = true ∧ isNaN 0x7FF0000000000001#64 = true := by
  decide

theorem witness_BandRule :
    bandLegal 0x3FB999999999999A#64 = true ∧ bandLegal 0x8000000000000000#64 = true ∧ bandLegal 0x4000000000000000#64 = true ∧
      fle 0x4000000000000000#64 Config.one64 = false ∧ isFinite 0#64 = true ∧ isNeg 0#64 = false := by decide

theorem witness_ArithmeticIsRounded :
    isFinite 0x7FEFFFFFFFFFFFFF#64 = true ∧ isFinite 0x0000000000000001#64 = true ∧ isFinite Config.one64 = true ∧
      fadd 0x7FEFFFFFFFFFFFFF#64 0x7FEFFFFFFFFFFFFF#64 = 0x7FF0000000000000#64 ∧
      fmul 0x0000000000000001#64 0x3FE0000000000000#64 = 0#64 ∧
      fdiv 0x7FEFFFFFFFFFFFFF#64 0x0000000000000001#64 = 0x7FF0000000000000#64 ∧ mant Config.one64 = 2 ^ 52 := by decide

theorem f64Value_one : f64Value Config.one64 = 1 := by
  rw [f64Value, show isNeg Config.one64 = false from by decide, show mant Config.one64 = 2 ^ 52 from by decide,
    show expo Config.one64 = -52 from by decide]
  norm_num

theorem witness_QuotientsAreRounded : isFinite Config.one64 = true ∧ f64Value Config.one64 ≠ 0 :=
  ⟨by decide, by rw [f64Value_one]; norm_num⟩

theorem witness_BilinearAtIntegerPoint :
    small.inImage 2 2 = true ∧ small.paramsOk = true ∧ small.cfgP = 8 ∧ small.cfgR = 1 ∧ small.trig = Config.trigTable := by
  decide

theorem witness_SampleCoordinatesStayInReach : small.trigInUnit = true ∧ State.reset.trigInUnit = true := by decide

theorem witness_WholeImageCommandResult :
    (Instr.lbpB, Variant.lbp, Mode.bilinear) ∈ imageForms ∧ (given .lbpB 0 0).issued ∧ Instr.lbpB.accepts (given .lbpB 0 0) ∧
      (given .lbpB 0 0).inInterior 1 1 = true ∧
      ∀ r c, (given .lbpB 0 0).inInterior r c = true → ∃ d, describe .lbp .bilinear (given .lbpB 0 0) r c = .ok d := by
  rw [Laws.accepts_iff]
  refine ⟨by decide, by unfold State.issued; decide, by decide, by decide, ?_⟩
  intro r c h
  obtain ⟨rfl, rfl⟩ := interior_small r c _ rfl (by decide) h
  exact ⟨_, rfl⟩

theorem witness_RilbpCommandResult :
    (given .rilbp 0 0).issued ∧ Instr.rilbp.accepts (given .rilbp 0 0) ∧
      ∀ r c, (given .rilbp 0 0).inInterior r c = true → ∃ d, describe .lbp .bilinear (given .rilbp 0 0) r c = .ok d := by
  rw [Laws.accepts_iff]
  refine ⟨by unfold State.issued; decide, by decide, ?_⟩
  intro r c h
  obtain ⟨rfl, rfl⟩ := interior_small r c _ rfl (by decide) h
  exact ⟨_, rfl⟩

theorem witness_RipassCommandResult :
    (given .ripass 0 0).issued ∧ Instr.ripass.accepts (given .ripass 0 0) ∧ (given .ripass 0 0).inInterior 1 1 = true := by
  rw [Laws.accepts_iff]; exact ⟨by unfold State.issued; decide, by decide, by decide⟩

theorem witness_WholeImageNeverRaisesBounds :
    (given .albpB 0 0).issued ∧ Instr.albpB.accepts (given .albpB 0 0) ∧ (given .albpB 0 0).trigInUnit = true := by
  rw [Laws.accepts_iff]; exact ⟨by unfold State.issued; decide, by decide, by decide⟩

theorem witness_WholeImageBoundsError :
    (Instr.rilbp, Variant.lbp, Mode.bilinear) ∈ imageForms ++ [(.rilbp, .lbp, .bilinear)] ∧ (badTrig .rilbp).issued ∧
      Instr.rilbp.accepts (badTrig .rilbp) ∧ (badTrig .rilbp).inInterior 1 1 = true ∧
      describe .lbp .bilinear (badTrig .rilbp) 1 1 = .error ⟨3, 2, 0⟩ ∧
      ∀ r c, (badTrig .rilbp).inInterior r c = true → earlierPixel r c 1 1 → ∃ d, describe .lbp .bilinear (badTrig .rilbp) r c = .ok d := by
  rw [Laws.accepts_iff]
  refine ⟨by decide, by unfold State.issued; decide, by decide, by decide, by decide, ?_⟩
  intro r c h he
  obtain ⟨rfl, rfl⟩ := interior_small r c _ rfl (by decide) h
  simp [earlierPixel] at he

/-- For BorderCellsAreZero, InteriorCodesFitThePattern, WholeImageWritesNoResult. -/
theorem witness_BorderCellsAreZero :
    Instr.ulbp ∈ fillCommands ∧ (given .ulbp 0 0).issued ∧
      (exec .ulbp (given .ulbp 0 0) = .next (after (exec .ulbp (given .ulbp 0 0)))) ∧
      (after (exec .ulbp (given .ulbp 0 0))).ecode = .ok ∧ 0 < (given .ulbp 0 0).height ∧ 2 < (given .ulbp 0 0).width ∧
      (given .ulbp 0 0).inInterior 1 1 = true :=
  ⟨by decide, by unfold State.issued; decide, rfl, by decide, by decide, by decide, by decide⟩

theorem witness_InteriorCodesFitThePattern :
    Instr.albpN ∈ fillCommands ∧ Instr.albpN ≠ .ulbp ∧ (onePoint .albpN).issued ∧
      (exec .albpN (onePoint .albpN) = .next (after (exec .albpN (onePoint .albpN)))) ∧
      (after (exec .albpN (onePoint .albpN))).ecode = .ok ∧ (onePoint .albpN).inInterior 1 1 = true :=
  ⟨by decide, by decide, by unfold State.issued; decide, rfl, by decide, by decide⟩

theorem witness_WholeImageWritesNoResult :
    Instr.ripass ∈ [Instr.lbpN, .lbpB, .rilbp, .ulbp, .albpN, .albpB, .ripass] ∧ (given .ripass 0 0).issued := by
  unfold State.issued; decide

theorem witness_TwoStepEqualsRilbp :
    ∃ t u w, exec .lbpB (small.given .lbpB) = .next t ∧ t.ecode = .ok ∧ exec .ripass (t.given .ripass) = .next u ∧
      exec .rilbp (small.given .rilbp) = .next w :=
  ⟨after (exec .lbpB (small.given .lbpB)), _, _, rfl, by decide, rfl, rfl⟩

theorem witness_ZeroFillingCommandsAreIdempotent :
    Instr.lbpN ∈ fillCommands ∧ ∃ t u, exec .lbpN (small.given .lbpN) = .next t ∧ exec .lbpN (t.given .lbpN) = .next u ∧
      0 < small.height * small.width :=
  ⟨by decide, after (exec .lbpN (small.given .lbpN)), _, rfl, rfl, by decide⟩

theorem witness_PixelMatchesWholeImage :
    (Instr.pixelAlbpB, Instr.albpB) ∈ pixelTwins ∧ ∃ t, exec .albpB ((given .nop 0x10001 0).given .albpB) = .next t ∧
      t.ecode = .ok ∧ (given .nop 0x10001 0).inInterior 1 1 = true ∧
      (given .nop 0x10001 0).arg0 = BitVec.ofNat 64 (1 * 2 ^ 16 + 1) :=
  ⟨by decide, after (exec .albpB ((given .nop 0x10001 0).given .albpB)), rfl, by decide, by decide, by decide⟩

theorem witness_SmallCommandsFrame :
    Instr.pixelUlbp ∈ smallCommands ∧ (given .pixelUlbp (centre 0) 0).issued ∧ Instr.sampleN ∈ smallCommands := by
  unfold State.issued; decide

theorem witness_PipelineNeverWritesInputs :
    step (waiting [.core] inPass2) = .next (after (step (waiting [.core] inPass2))) ∧
      (∀ e rest, (waiting [.core] inPass2).agenda = e :: rest → e = .core ∨ e = .run) :=
  ⟨rfl, by simp [waiting]⟩

theorem witness_CsrWindowAccess : (0x07F#18).toNat < 0x1000 ∧ 0x058 ≤ (0x058#18).toNat ∧ 0x0C0 ≤ (0xFFF#18).toNat ∧
    small.busy = false := by decide

theorem witness_RefusedAccesses :
    (0xFFFF : Nat) < 0x10000 ∧ small.maxPix < 0xFFFF + 2 ∧ (0xFFFF : Nat) % 2 ≠ 0 ∧ 3 ∉ [1, 2, 4, 8] ∧
      0x01000 ≤ (0x01000#18).toNat ∧ (0x0FFFF#18).toNat ≤ 0x0FFFF ∧ 0x30000 ≤ (0x30000#18).toNat := by decide

theorem witness_WindowsAreLittleEndian :
    small.maxPix ≤ 65536 ∧ 8 ∈ [1, 2, 4, 8] ∧ 0xFFF8 % 8 = 0 ∧ 0xFFF8 + 8 ≤ small.maxPix ∧ small.busy = false ∧
      (given .nop 0 0).busy = true := by decide

theorem witness_BusyRefusesWrites :
    (given .nop 0 0).busy = true ∧ 0x10000 ≤ (0x10000#18).toNat ∧ (0x2FFFF#18).toNat < 0x30000 := by decide

theorem witness_ReadsHaveNoSideEffect :
    (hostAccess (.write 8 0x20 0) small).1.busy ≠ small.busy ∧
      (hostAccess (.write 8 0x28 2) { small with done := true }).1.done ≠ true := by decide

theorem witness_InterruptLevel :
    (waiting [.access (.write 8 0x28 2)] { small with done := true, ctrl := 0x10108 }).wf = true ∧
      (waiting [.access (.write 8 0x28 2)] { small with done := true, ctrl := 0x10108 }).irq = true ∧
      (after (step (waiting [.access (.write 8 0x28 2)] { small with done := true, ctrl := 0x10108 }))).irq = false ∧
      { given .nop 0 0 with ctrl := 0x10108 }.wf = true ∧ { given .nop 0 0 with ctrl := 0x10108 }.irq = false ∧
      (after (step { given .nop 0 0 with ctrl := 0x10108 })).irq = true := by decide

theorem witness_ResetValues : (waiting [.reset] inPass2).agenda = .reset :: [] := by decide

theorem witness_StepKeepsGoodState : inPass2.wf = true ∧ completing.wf = true ∧ (given .lbpN 0 0).wf = true := by decide

theorem witness_StepKeepsScanPlace :
    inPass2.wf = true ∧ inPass2.scanOk = true ∧ afterPass1.scanOk = true ∧ (given .lbpN 0 0).scanOk = true := by decide

theorem witness_SecondPassAfterFirst :
    afterPass1.wf = true ∧ afterPass1.scanOk = true ∧ afterPass1.agenda = .core :: [] ∧ afterPass1.flight.phase ≠ .pass2 ∧
      (after (step afterPass1)).flight.phase = .pass2 ∧
      inPass2.wf = true ∧ inPass2.scanOk = true ∧ inPass2.agenda = .core :: [] ∧
      inPass2.inInterior inPass2.flight.row inPass2.flight.col = true := by decide

end Sys2Proof.Tests
end

section
/-!
PROOFS. The binary64 primitives of 00_scope.md R7 to R9 (Machine/Binary64.lean): an encoding is a sign and a magnitude key, the
magnitude grows strictly with the key, and every operation rounds its exact result to the nearest key once.
-/
namespace Sys2Proof.Proofs

open Sys2Proof Sys2Proof.Machine

/-- The 63 bits below the sign, as a number: the magnitude part of `orderKey`. -/
def magKey (x : F64) : ℕ := (x &&& 0x7FFFFFFFFFFFFFFF#64).toNat

/-- The magnitude of the encoding with magnitude bits `k`, in units of the least subnormal. It is defined for every `k`, as if the
exponent field had no upper end, so that rounding can be described before overflow is. -/
def keyUnits (k : ℕ) : ℕ := (if k / 2 ^ 52 = 0 then k % 2 ^ 52 else 2 ^ 52 + k % 2 ^ 52) * 2 ^ (k / 2 ^ 52 - 1)

/-- The value of the least positive subnormal, 2 ^ (-1074). -/
def leastSubnormal : ℚ := (2 : ℚ) ^ (-1074 : ℤ)

/-- A sign as a factor. -/
def signFactor (neg : Bool) : ℚ := if neg then -1 else 1

@[simp] theorem signFactor_true : signFactor true = -1 := rfl
@[simp] theorem signFactor_false : signFactor false = 1 := rfl
@[simp] theorem signFactor_not (neg : Bool) : signFactor (!neg) = -signFactor neg := by cases neg <;> simp
@[simp] theorem abs_signFactor (neg : Bool) : |signFactor neg| = 1 := by cases neg <;> simp

theorem signFactor_bne (p q : Bool) : signFactor (p != q) = signFactor p * signFactor q := by
  cases p <;> cases q <;> simp

theorem signFactor_bne_div (p q : Bool) : signFactor (p != q) = signFactor p / signFactor q := by
  cases p <;> cases q <;> simp

theorem leastSubnormal_pos : 0 < leastSubnormal := by unfold leastSubnormal; positivity

theorem cast_signedMant (neg : Bool) (m : ℕ) : (signedMant neg m : ℚ) = signFactor neg * m := by
  cases neg <;> simp [signedMant]

/-! ### The fields of an encoding -/

theorem magKey_eq_mod (x : F64) : magKey x = x.toNat % 2 ^ 63 := by
  rw [magKey, BitVec.toNat_and]
  exact Nat.and_two_pow_sub_one_eq_mod x.toNat 63

theorem expField_eq (x : F64) : expField x = magKey x / 2 ^ 52 := by
  rw [expField, magKey_eq_mod, BitVec.extractLsb'_toNat, Nat.shiftRight_eq_div_pow]
  omega

theorem fracField_eq (x : F64) : fracField x = magKey x % 2 ^ 52 := by
  rw [fracField, magKey_eq_mod, BitVec.extractLsb'_toNat, Nat.shiftRight_eq_div_pow]
  omega

theorem magKey_lt (x : F64) : magKey x < 2 ^ 63 := by
  rw [magKey_eq_mod]; exact Nat.mod_lt _ (by positivity)

/-- An encoding is finite when its magnitude bits are below those of an infinity. -/
theorem isFinite_iff (x : F64) : isFinite x = true ↔ magKey x < infBits := by
  have := magKey_lt x
  rw [isFinite, expField_eq, infBits, bne_iff_ne]
  omega

/-- An encoding is a NaN when its magnitude bits are above those of an infinity. -/
theorem isNaN_iff (x : F64) : isNaN x = true ↔ infBits < magKey x := by
  have := magKey_lt x
  rw [isNaN, expField_eq, fracField_eq, infBits, Bool.and_eq_true, beq_iff_eq, bne_iff_ne]
  omega

theorem isNaN_eq_false {x : F64} (h : isFinite x = true) : isNaN x = false := by
  rw [Bool.eq_false_iff, ne_eq, isNaN_iff]
  exact Nat.lt_asymm ((isFinite_iff x).1 h)

theorem isInf_eq_false {x : F64} (h : isFinite x = true) : isInf x = false := by
  rw [isFinite, bne_iff_ne] at h
  simp [isInf, h]

theorem toNat_withSign (neg : Bool) {k : ℕ} (hk : k < 2 ^ 63) :
    (withSign neg k).toNat = if neg then 2 ^ 63 + k else k := by
  rw [withSign, BitVec.toNat_ofNat]
  split <;> omega

@[simp] theorem isNeg_withSign (neg : Bool) {k : ℕ} (hk : k < 2 ^ 63) : isNeg (withSign neg k) = neg := by
  rw [isNeg, BitVec.msb_eq_decide, toNat_withSign neg hk]
  cases neg
  · simpa using hk
  · simp

@[simp] theorem magKey_withSign (neg : Bool) {k : ℕ} (hk : k < 2 ^ 63) : magKey (withSign neg k) = k := by
  rw [magKey_eq_mod, toNat_withSign neg hk]
  split <;> omega

/-- The parity of the significand is that of the encoding. -/
theorem mant_mod_two (x : F64) : mant x % 2 = magKey x % 2 := by
  rw [mant, fracField_eq]
  split <;> omega

/-! ### Values in units of the least subnormal -/

theorem mant_mul_two_zpow_expo (x : F64) : (mant x : ℚ) * (2 : ℚ) ^ expo x = keyUnits (magKey x) * leastSubnormal := by
  rw [mant, expo, keyUnits, expField_eq, fracField_eq]
  split
  next hE =>
    rw [hE]
    split
    next hF => rw [hF]; simp
    next => simp [leastSubnormal]
  next hE =>
    have hexp : (((magKey x / 2 ^ 52 : ℕ) : ℤ) - 1075) = ((magKey x / 2 ^ 52 - 1 : ℕ) : ℤ) + (-1074) := by omega
    rw [hexp, zpow_add₀ two_ne_zero, zpow_natCast, ← leastSubnormal]
    push_cast
    ring

/-- The value of an encoding, told from its sign and its magnitude bits. -/
theorem f64Value_eq (x : F64) : f64Value x = signFactor (isNeg x) * (keyUnits (magKey x) * leastSubnormal) := by
  rw [f64Value, mul_assoc, mant_mul_two_zpow_expo, signFactor]

theorem f64Value_eq_signedMant (x : F64) : f64Value x = signedMant (isNeg x) (mant x) * (2 : ℚ) ^ expo x := by
  rw [cast_signedMant, f64Value, signFactor]

theorem f64Value_withSign (neg : Bool) {k : ℕ} (hk : k < 2 ^ 63) :
    f64Value (withSign neg k) = signFactor neg * (keyUnits k * leastSubnormal) := by
  rw [f64Value_eq, isNeg_withSign neg hk, magKey_withSign neg hk]

/-- A significand `s` of at most 53 bits at the exponent field `E` above the least, whether or not it carries into the exponent. -/
theorem keyUnits_significand {E s : ℕ} (hs : s ≤ 2 ^ 53) (hn : 2 ^ 52 ≤ s ∨ E = 0) :
    keyUnits (E * 2 ^ 52 + s) = s * 2 ^ E := by
  unfold keyUnits
  rcases Nat.lt_or_ge s (2 ^ 52) with hlt | hge
  · obtain rfl : E = 0 := by omega
    rw [show (0 * 2 ^ 52 + s) / 2 ^ 52 = 0 by omega, show (0 * 2 ^ 52 + s) % 2 ^ 52 = s by omega]
    simp
  · rcases Nat.eq_or_lt_of_le hs with rfl | hlt
    · rw [show (E * 2 ^ 52 + 2 ^ 53) / 2 ^ 52 = E + 2 by omega, show (E * 2 ^ 52 + 2 ^ 53) % 2 ^ 52 = 0 by omega,
        if_neg (by omega), show E + 2 - 1 = E + 1 by omega, pow_succ 2 E]
      ring
    · rw [show (E * 2 ^ 52 + s) / 2 ^ 52 = E + 1 by omega, show (E * 2 ^ 52 + s) % 2 ^ 52 = s - 2 ^ 52 by omega,
        if_neg (by omega), Nat.add_sub_of_le hge, Nat.add_sub_cancel]

/-- The magnitude bits split into an exponent and a significand that `keyUnits_significand` applies to. -/
theorem exists_significand (k : ℕ) :
    ∃ E s, k = E * 2 ^ 52 + s ∧ s < 2 ^ 53 ∧ (2 ^ 52 ≤ s ∨ E = 0) := by
  by_cases h : k / 2 ^ 52 = 0
  · exact ⟨0, k, by omega, by omega, .inr rfl⟩
  · exact ⟨k / 2 ^ 52 - 1, k % 2 ^ 52 + 2 ^ 52, by omega, by omega, .inl (by omega)⟩

/-- The next encoding has a greater magnitude, across the carry into the exponent too. -/
theorem keyUnits_strictMono : StrictMono keyUnits := by
  refine strictMono_nat_of_lt_succ fun k => ?_
  obtain ⟨E, s, rfl, hs, hn⟩ := exists_significand k
  rw [keyUnits_significand hs.le hn, add_assoc, keyUnits_significand hs (by omega)]
  gcongr
  exact Nat.lt_succ_self s

@[simp] theorem keyUnits_zero : keyUnits 0 = 0 := by decide

theorem keyUnits_infBits_pred : keyUnits (infBits - 1) = (2 ^ 53 - 1) * 2 ^ 2045 := by
  rw [show infBits - 1 = 2045 * 2 ^ 52 + (2 ^ 53 - 1) by decide]
  exact keyUnits_significand (Nat.sub_le _ _) (.inl (by norm_num))

theorem keyUnits_infBits : keyUnits infBits = 2 ^ 53 * 2 ^ 2045 := by
  rw [show infBits = 2045 * 2 ^ 52 + 2 ^ 53 by decide]
  exact keyUnits_significand le_rfl (.inl (by norm_num))

/-- Twice a magnitude is a magnitude again, when the exponent has no upper end. -/
theorem exists_keyUnits_double (k : ℕ) : ∃ j, keyUnits j = 2 * keyUnits k := by
  obtain ⟨E, s, rfl, hs, hn⟩ := exists_significand k
  rw [keyUnits_significand hs.le hn]
  rcases Nat.lt_or_ge s (2 ^ 52) with hlt | hge
  · obtain rfl : E = 0 := by omega
    exact ⟨0 * 2 ^ 52 + 2 * s, by rw [keyUnits_significand (by omega) (.inr rfl)]; ring⟩
  · exact ⟨(E + 1) * 2 ^ 52 + s, by rw [keyUnits_significand hs.le (.inl hge), pow_succ]; ring⟩

theorem exists_keyUnits_eq {m : ℕ} (hm : m ≤ 2 ^ 53) (t : ℕ) : ∃ j, keyUnits j = m * 2 ^ t := by
  induction t with
  | zero => exact ⟨0 * 2 ^ 52 + m, keyUnits_significand hm (.inr rfl)⟩
  | succ t ih =>
    obtain ⟨k, hk⟩ := ih
    obtain ⟨j, hj⟩ := exists_keyUnits_double k
    exact ⟨j, by rw [hj, hk, pow_succ]; ring⟩

/-! ### The order of encodings -/

theorem keyUnits_eq_zero_iff (k : ℕ) : keyUnits k = 0 ↔ k = 0 :=
  keyUnits_strictMono.injective.eq_iff' keyUnits_zero

/-- `keyUnits` keeps the order of signed magnitudes, in which the two zeros are one. -/
theorem signedMant_keyUnits_le_iff (p q : Bool) (j k : ℕ) :
    signedMant p (keyUnits j) ≤ signedMant q (keyUnits k) ↔ signedMant p j ≤ signedMant q k := by
  have hjk := keyUnits_strictMono.le_iff_le (a := j) (b := k)
  have hkj := keyUnits_strictMono.le_iff_le (a := k) (b := j)
  have hj := keyUnits_eq_zero_iff j
  have hk := keyUnits_eq_zero_iff k
  cases p <;> cases q <;> simp [signedMant] <;> omega

theorem orderKey_le_iff (a b : F64) : orderKey a ≤ orderKey b ↔ f64Value a ≤ f64Value b := by
  rw [f64Value_eq, f64Value_eq, ← mul_assoc, ← mul_assoc, mul_le_mul_iff_left₀ leastSubnormal_pos, ← cast_signedMant,
    ← cast_signedMant, Int.cast_le, signedMant_keyUnits_le_iff]
  rfl

theorem fle_iff {a b : F64} (ha : isFinite a = true) (hb : isFinite b = true) :
    fle a b = true ↔ f64Value a ≤ f64Value b := by
  simp [fle, isNaN_eq_false ha, isNaN_eq_false hb, orderKey_le_iff]

/-! ### Rounding to an integer, ties to even -/

/-- `s` is an integer nearest `t`, the even one where two are as near. -/
def RoundsHalfEven (t : ℚ) (s : ℕ) : Prop := |(s : ℚ) - t| ≤ 1 / 2 ∧ (|(s : ℚ) - t| = 1 / 2 → s % 2 = 0)

/-- No integer is nearer than the rounded one, and another one is as near only halfway. -/
theorem RoundsHalfEven.nearest {t : ℚ} {s : ℕ} (h : RoundsHalfEven t s) (i : ℕ) :
    |(s : ℚ) - t| ≤ |(i : ℚ) - t| ∧ (|(s : ℚ) - t| = |(i : ℚ) - t| → i ≠ s → s % 2 = 0) := by
  obtain ⟨hhalf, heven⟩ := h
  rcases eq_or_ne i s with rfl | hne
  · exact ⟨le_rfl, fun _ h => absurd rfl h⟩
  have hdist : (1 : ℚ) ≤ |(s : ℚ) - i| := by
    have : (1 : ℤ) ≤ |(s : ℤ) - i| := Int.one_le_abs (by omega)
    exact_mod_cast this
  have htri : |(s : ℚ) - i| ≤ |(s : ℚ) - t| + |(i : ℚ) - t| := by
    rw [abs_sub_comm (i : ℚ) t]; exact abs_sub_le _ _ _
  exact ⟨by linarith, fun heq _ => heven (by linarith)⟩

theorem RoundsHalfEven.le_of_le {t : ℚ} {s n : ℕ} (h : RoundsHalfEven t s) (hn : t ≤ n) : s ≤ n := by
  have := (abs_le.1 h.1).2
  have : (s : ℚ) < n + 1 := by linarith
  exact Nat.lt_succ_iff.1 (by exact_mod_cast this)

theorem RoundsHalfEven.le_of_ge {t : ℚ} {s n : ℕ} (h : RoundsHalfEven t s) (hn : n ≤ t) : n ≤ s := by
  have := (abs_le.1 h.1).1
  have : (n : ℚ) < s + 1 := by linarith
  exact Nat.lt_succ_iff.1 (by exact_mod_cast this)

theorem roundsHalfEven_div_iff {x u : ℚ} (hu : 0 < u) (s : ℕ) :
    RoundsHalfEven (x / u) s ↔ 2 * |s * u - x| ≤ u ∧ (2 * |s * u - x| = u → s % 2 = 0) := by
  have hscale : |(s : ℚ) - x / u| = |s * u - x| / u := by
    rw [← abs_of_pos hu, ← abs_div, abs_of_pos hu, sub_div, mul_div_cancel_right₀ _ hu.ne']
  rw [RoundsHalfEven, hscale, div_le_div_iff₀ hu two_pos, div_eq_div_iff hu.ne' two_ne_zero, one_mul, mul_comm]

/-- What a sticky bit stands for: the part of the exact value below the last unit. -/
def StickyRest (sticky : Bool) (ρ : ℚ) : Prop := 0 ≤ ρ ∧ ρ < 1 ∧ (sticky = true ↔ ρ ≠ 0)

theorem stickyRest_false : StickyRest false 0 := ⟨le_rfl, zero_lt_one, by simp⟩

/-- The comparison of the remainder with half a unit decides the rounding, because the rest below it is less than one and the
unit is even. -/
theorem roundsHalfEven_unit {m unit : ℕ} {sticky : Bool} {ρ : ℚ} (hpos : 0 < unit) (heven : unit % 2 = 0)
    (hρ : StickyRest sticky ρ) :
    RoundsHalfEven ((m + ρ) / unit)
      (if unit < 2 * (m % unit) || (2 * (m % unit) == unit && (sticky || m / unit % 2 == 1)) then m / unit + 1
        else m / unit) := by
  obtain ⟨hρ0, hρ1, hsticky⟩ := hρ
  rw [roundsHalfEven_div_iff (by exact_mod_cast hpos)]
  have hlt := Nat.mod_lt m hpos
  have hm : (m : ℚ) = unit * (m / unit : ℕ) + (m % unit : ℕ) := by exact_mod_cast (Nat.div_add_mod m unit).symm
  rw [hm]
  generalize m / unit = q at *
  generalize m % unit = r at *
  have hdown : (q : ℚ) * unit - (unit * q + r + ρ) = -(r + ρ) := by ring
  have hup : ((q + 1 : ℕ) : ℚ) * unit - (unit * q + r + ρ) = unit - (r + ρ) := by push_cast; ring
  have hr1 : (r : ℚ) + 1 ≤ unit := by exact_mod_cast hlt
  have hr0 : (0 : ℚ) ≤ r := r.cast_nonneg
  rcases Nat.lt_trichotomy (2 * r) unit with hlow | hmid | hhigh
  · have hgap : 2 * (r : ℚ) + 2 ≤ unit := by exact_mod_cast (show 2 * r + 2 ≤ unit by omega)
    rw [if_neg (by simp; omega), hdown, abs_neg, abs_of_nonneg (by linarith)]
    exact ⟨by linarith, fun h => by linarith⟩
  · have hmid' : 2 * (r : ℚ) = unit := by exact_mod_cast hmid
    split
    next hcond =>
      rw [hup, abs_of_nonneg (by linarith)]
      refine ⟨by linarith, fun h => ?_⟩
      have hzero : ρ = 0 := by linarith
      have hodd : q % 2 = 1 := by simpa [hmid, hsticky, hzero] using hcond
      omega
    next hcond =>
      have hzero : ρ = 0 ∧ q % 2 ≠ 1 := by simpa [hmid, hsticky] using hcond
      rw [hdown, hzero.1, abs_neg, abs_of_nonneg (by linarith)]
      exact ⟨by linarith, fun _ => by omega⟩
  · have hgap : (unit : ℚ) + 1 ≤ 2 * r := by exact_mod_cast hhigh
    rw [if_pos (by simp [hhigh]), hup, abs_of_nonneg (by linarith)]
    exact ⟨by linarith, fun h => by linarith⟩

/-- `roundShift` rounds `(m + ρ) / 2 ^ d` half to even. A shift to the left is exact, so no rest may stand below it. -/
theorem roundShift_roundsHalfEven {m : ℕ} {d : ℤ} {sticky : Bool} {ρ : ℚ} (hρ : StickyRest sticky ρ)
    (hd : d ≤ 0 → sticky = false) : RoundsHalfEven ((m + ρ) / (2 : ℚ) ^ d) (roundShift m d sticky) := by
  obtain ⟨hρ0, hρ1, hsticky⟩ := hρ
  unfold roundShift
  split
  next hneg =>
    have hzero : ρ = 0 := by simpa [hd hneg] using hsticky
    have hexact : (m + ρ) / (2 : ℚ) ^ d = ((m * 2 ^ (-d).toNat : ℕ) : ℚ) := by
      push_cast
      rw [hzero, add_zero, div_eq_mul_inv, ← zpow_neg, ← zpow_natCast, Int.toNat_of_nonneg (by omega)]
    rw [hexact]
    constructor <;> norm_num
  next =>
    obtain ⟨n, rfl⟩ : ∃ n : ℕ, d = (n + 1 : ℕ) := ⟨(d - 1).toNat, by omega⟩
    rw [Int.toNat_natCast, zpow_natCast]
    have heven : 2 ^ (n + 1) % 2 = 0 := by omega
    have hpos : 0 < 2 ^ (n + 1) := by positivity
    have hcast : (2 : ℚ) ^ (n + 1) = ((2 ^ (n + 1) : ℕ) : ℚ) := by push_cast; rfl
    rw [hcast]
    generalize 2 ^ (n + 1) = unit at *
    exact roundsHalfEven_unit hpos heven ⟨hρ0, hρ1, hsticky⟩

/-! ### Rounding to a magnitude -/

/-- Of all magnitudes, as if the exponent had no upper end, that of `k` is nearest `μ` (in units of the least subnormal), and the
even encoding is taken where two are as near. -/
def NearestKey (μ : ℚ) (k : ℕ) : Prop :=
  ∀ j, |(keyUnits k : ℚ) - μ| ≤ |(keyUnits j : ℚ) - μ| ∧
    (|(keyUnits k : ℚ) - μ| = |(keyUnits j : ℚ) - μ| → j ≠ k → k % 2 = 0)

theorem nearestKey_zero : NearestKey 0 0 := fun j => by simp

/-- Where a magnitude of exponent `E` is due, the integer multiples of 2 ^ E stand for all magnitudes: the finer ones lie below
the least significand, which is itself nearer. -/
theorem exists_integer_as_near {t : ℚ} {E : ℕ} (hn : 2 ^ 52 ≤ t ∨ E = 0) (j : ℕ) :
    ∃ i : ℕ, |(i : ℚ) - t| * 2 ^ E ≤ |(keyUnits j : ℚ) - t * 2 ^ E| ∧
      (|(i : ℚ) - t| * 2 ^ E = |(keyUnits j : ℚ) - t * 2 ^ E| → keyUnits j = i * 2 ^ E) := by
  have hscale (i : ℕ) : |(i : ℚ) - t| * 2 ^ E = |(i : ℚ) * 2 ^ E - t * 2 ^ E| := by
    rw [← sub_mul, abs_mul, abs_of_pos (by positivity : (0 : ℚ) < 2 ^ E)]
  obtain ⟨E', s, rfl, hs, hs'⟩ := exists_significand j
  rw [keyUnits_significand hs.le hs']
  rcases Nat.lt_or_ge E' E with hlt | hge
  · have ht : 2 ^ 52 ≤ t := hn.resolve_right (by omega)
    have hbelow : s * 2 ^ E' < 2 ^ 52 * 2 ^ E := calc
      s * 2 ^ E' < 2 ^ 53 * 2 ^ E' := by gcongr
      _ = 2 ^ 52 * 2 ^ (E' + 1) := by ring
      _ ≤ 2 ^ 52 * 2 ^ E := by gcongr <;> omega
    have hbelow' : ((s * 2 ^ E' : ℕ) : ℚ) < 2 ^ 52 * 2 ^ E := by exact_mod_cast hbelow
    have habove : (2 : ℚ) ^ 52 * 2 ^ E ≤ t * 2 ^ E := by gcongr
    have hstrict : |((2 ^ 52 : ℕ) : ℚ) - t| * 2 ^ E < |((s * 2 ^ E' : ℕ) : ℚ) - t * 2 ^ E| := by
      rw [hscale, abs_of_nonpos (by push_cast; linarith), abs_of_nonpos (by linarith)]
      push_cast at hbelow' ⊢
      linarith
    exact ⟨2 ^ 52, hstrict.le, fun h => absurd h hstrict.ne⟩
  · have hsplit : s * 2 ^ E' = s * 2 ^ (E' - E) * 2 ^ E := by rw [mul_assoc, ← pow_add, Nat.sub_add_cancel hge]
    refine ⟨s * 2 ^ (E' - E), ?_, fun _ => hsplit⟩
    rw [hscale, hsplit, Nat.cast_mul (s * 2 ^ (E' - E)), Nat.cast_pow, Nat.cast_ofNat]

/-- Rounding the significand half to even gives the nearest magnitude. -/
theorem nearestKey_of_roundsHalfEven {t : ℚ} {E s : ℕ} (h : RoundsHalfEven t s) (ht : t ≤ 2 ^ 53)
    (hn : 2 ^ 52 ≤ t ∨ E = 0) : NearestKey (t * 2 ^ E) (E * 2 ^ 52 + s) := by
  have hs : s ≤ 2 ^ 53 := h.le_of_le (by exact_mod_cast ht)
  have hs' : 2 ^ 52 ≤ s ∨ E = 0 := hn.imp_left fun h52 => h.le_of_ge (by exact_mod_cast h52)
  have hk : |(keyUnits (E * 2 ^ 52 + s) : ℚ) - t * 2 ^ E| = |(s : ℚ) - t| * 2 ^ E := by
    rw [keyUnits_significand hs hs', Nat.cast_mul, Nat.cast_pow, Nat.cast_ofNat, ← sub_mul, abs_mul,
      abs_of_pos (by positivity : (0 : ℚ) < 2 ^ E)]
  intro j
  obtain ⟨i, hle, heq⟩ := exists_integer_as_near hn j
  obtain ⟨hnear, htie⟩ := h.nearest i
  have hnear' : |(s : ℚ) - t| * 2 ^ E ≤ |(i : ℚ) - t| * 2 ^ E := by gcongr
  rw [hk]
  refine ⟨hnear'.trans hle, fun hsame hne => ?_⟩
  have hji := heq (le_antisymm hle (hsame ▸ hnear'))
  have his : i ≠ s := by
    rintro rfl
    exact hne (keyUnits_strictMono.injective (hji.trans (keyUnits_significand hs hs').symm))
  have hst : |(s : ℚ) - t| = |(i : ℚ) - t| :=
    mul_right_cancel₀ (by positivity : (2 : ℚ) ^ E ≠ 0) (le_antisymm hnear' (hsame ▸ hle))
  have := htie hst his
  omega

/-- Half way between the greatest finite magnitude and the next one. -/
theorem overflowBound_eq :
    overflowBound = ((keyUnits (infBits - 1) : ℚ) + keyUnits infBits) / 2 * leastSubnormal := by
  have hpow : (2 : ℚ) ^ 2045 * leastSubnormal = 2 ^ (971 : ℤ) := by
    rw [leastSubnormal, ← zpow_natCast, ← zpow_add₀ two_ne_zero]; norm_num
  have hpred : (keyUnits (infBits - 1) : ℚ) = (2 ^ 53 - 1) * 2 ^ 2045 := by
    rw [keyUnits_infBits_pred, Nat.cast_mul, Nat.cast_pow 2 2045]; norm_num
  have htop : (keyUnits infBits : ℚ) = 2 ^ 53 * 2 ^ 2045 := by
    rw [keyUnits_infBits, Nat.cast_mul, Nat.cast_pow 2 2045]; norm_num
  calc overflowBound = ((2 ^ 53 - 1) + 2 ^ 53) / 2 * 2 ^ (971 : ℤ) := by
        rw [overflowBound, show (1023 : ℤ) = 971 + 52 by norm_num, zpow_add₀ two_ne_zero]
        generalize (2 : ℚ) ^ (971 : ℤ) = unit
        norm_num
        ring
    _ = _ := by
        rw [hpred, htop, ← hpow]
        generalize (2 : ℚ) ^ 2045 = unit
        ring

/-- The nearest magnitude is an overflow from the overflow bound on; at the bound itself because the greatest finite encoding is
odd. -/
theorem NearestKey.infBits_le_iff {μ : ℚ} {k : ℕ} (h : NearestKey μ k) :
    infBits ≤ k ↔ overflowBound ≤ μ * leastSubnormal := by
  rw [overflowBound_eq, mul_le_mul_iff_left₀ leastSubnormal_pos]
  have hmax : (keyUnits (infBits - 1) : ℚ) < keyUnits infBits := by
    exact_mod_cast keyUnits_strictMono (by decide : infBits - 1 < infBits)
  constructor
  · intro hk
    have hu : (keyUnits infBits : ℚ) ≤ keyUnits k := by exact_mod_cast keyUnits_strictMono.monotone hk
    by_contra! hlow
    have hnear := (h (infBits - 1)).1
    rw [abs_of_pos (by linarith)] at hnear
    rcases abs_cases ((keyUnits (infBits - 1) : ℚ) - μ) with ⟨habs, _⟩ | ⟨habs, _⟩ <;> linarith
  · intro hμ
    by_contra! hk
    have hu : (keyUnits k : ℚ) ≤ keyUnits (infBits - 1) := by
      exact_mod_cast keyUnits_strictMono.monotone (by omega : k ≤ infBits - 1)
    obtain ⟨hnear, htie⟩ := h infBits
    rw [abs_of_neg (by linarith)] at hnear htie
    rcases abs_cases ((keyUnits infBits : ℚ) - μ) with ⟨habs, _⟩ | ⟨habs, _⟩
    · rw [habs] at hnear htie
      have huk : (keyUnits k : ℚ) = keyUnits (infBits - 1) := by linarith
      have hodd : k = infBits - 1 := keyUnits_strictMono.injective (by exact_mod_cast huk)
      have heven : k % 2 = 0 := htie (by linarith) hk.ne'
      rw [hodd] at heven
      exact absurd heven (by decide)
    · linarith

/-- `roundPack` packs the nearest magnitude, or an infinity where it has no finite encoding. The rest that the sticky bit tells
has to stand below a significand of 54 bits or more, so that some bit is rounded off. -/
theorem roundPack_nearestKey {m : ℕ} {e : ℤ} {sticky : Bool} {ρ : ℚ} (neg : Bool) (hm : m ≠ 0) (hρ : StickyRest sticky ρ)
    (hbits : sticky = true → 2 ^ 53 ≤ m) :
    ∃ k, NearestKey ((m + ρ) * 2 ^ e / leastSubnormal) k ∧ roundPack neg m e sticky = withSign neg (min infBits k) := by
  have hlog : 2 ^ m.log2 ≤ m := Nat.log2_self_le hm
  have hlog' : m < 2 ^ (m.log2 + 1) := Nat.lt_log2_self
  obtain ⟨q, hq⟩ : ∃ q, q = max (e + (m.log2 : ℤ) - 52) (-1074) := ⟨_, rfl⟩
  refine ⟨(q + 1074).toNat * 2 ^ 52 + roundShift m (q - e) sticky, ?_, ?_⟩
  · have hμ : (m + ρ) * 2 ^ e / leastSubnormal = (m + ρ) / (2 : ℚ) ^ (q - e) * 2 ^ (q + 1074).toNat := by
      rw [leastSubnormal, ← zpow_natCast, Int.toNat_of_nonneg (by omega), mul_div_assoc, div_mul_eq_mul_div, mul_div_assoc,
        ← zpow_sub₀ two_ne_zero, ← zpow_sub₀ two_ne_zero]
      congr 2
      ring
    rw [hμ]
    refine nearestKey_of_roundsHalfEven (roundShift_roundsHalfEven hρ ?_) ?_ ?_
    · intro hshift
      by_contra hsticky
      have := (Nat.le_log2 hm).2 (hbits (by simpa using hsticky))
      omega
    · rw [div_le_iff₀ (by positivity), ← zpow_natCast, ← zpow_add₀ two_ne_zero]
      calc (m + ρ : ℚ) ≤ ((m + 1 : ℕ) : ℚ) := by push_cast; linarith [hρ.2.1]
        _ ≤ ((2 ^ (m.log2 + 1) : ℕ) : ℚ) := by exact_mod_cast hlog'
        _ = (2 : ℚ) ^ ((m.log2 + 1 : ℕ) : ℤ) := by rw [Nat.cast_pow, zpow_natCast, Nat.cast_ofNat]
        _ ≤ (2 : ℚ) ^ (((53 : ℕ) : ℤ) + (q - e)) := zpow_le_zpow_right₀ one_le_two (by omega)
    · rcases eq_or_ne (q + 1074).toNat 0 with hzero | hnormal
      · exact .inr hzero
      left
      rw [le_div_iff₀ (by positivity), ← zpow_natCast, ← zpow_add₀ two_ne_zero]
      calc (2 : ℚ) ^ (((52 : ℕ) : ℤ) + (q - e)) = ((2 ^ m.log2 : ℕ) : ℚ) := by
            rw [show ((52 : ℕ) : ℤ) + (q - e) = (m.log2 : ℤ) by omega, zpow_natCast, Nat.cast_pow, Nat.cast_ofNat]
        _ ≤ m := by exact_mod_cast hlog
        _ ≤ m + ρ := by linarith [hρ.1]
  · rw [roundPack, if_neg hm, min_def, ← hq]

/-! ### Rounding to an encoding -/

/-- `r` is `q` rounded once: a nearest finite value below the overflow bound, an infinity of the sign of `q` from it on. -/
def RoundedTo (q : ℚ) (r : F64) : Prop :=
  (|q| < overflowBound → roundsTo q r) ∧
    (overflowBound ≤ |q| → r = if q < 0 then 0xFFF0000000000000#64 else 0x7FF0000000000000#64)

theorem overflowBound_pos : 0 < overflowBound :=
  mul_pos (by norm_num) (by positivity)

theorem withSign_infBits (neg : Bool) :
    withSign neg infBits = if neg then 0xFFF0000000000000#64 else 0x7FF0000000000000#64 := by
  cases neg <;> decide

theorem abs_signFactor_sub (p q : Bool) {x y : ℚ} (hx : 0 ≤ x) (hy : 0 ≤ y) :
    |signFactor p * x - signFactor q * y| = if p = q then |x - y| else x + y := by
  split
  next h => rw [h, ← mul_sub, abs_mul, abs_signFactor, one_mul]
  next h =>
    obtain rfl : q = !p := by revert h; cases p <;> cases q <;> simp
    rw [signFactor_not, neg_mul, sub_neg_eq_add, ← mul_add, abs_mul, abs_signFactor, one_mul,
      abs_of_nonneg (add_nonneg hx hy)]

theorem f64Value_sub_eq (z : F64) (neg : Bool) (μ : ℚ) :
    |f64Value z - signFactor neg * (μ * leastSubnormal)| =
      |signFactor (isNeg z) * keyUnits (magKey z) - signFactor neg * μ| * leastSubnormal := by
  rw [f64Value_eq, ← mul_assoc, ← mul_assoc, ← sub_mul, abs_mul, abs_of_pos leastSubnormal_pos]

theorem NearestKey.roundsTo {μ : ℚ} {k : ℕ} (h : NearestKey μ k) (hμ : 0 ≤ μ) (hk : k < infBits) (neg : Bool) :
    roundsTo (signFactor neg * (μ * leastSubnormal)) (withSign neg k) := by
  have hk63 : k < 2 ^ 63 := hk.trans (by decide)
  have hr : |f64Value (withSign neg k) - signFactor neg * (μ * leastSubnormal)| = |(keyUnits k : ℚ) - μ| * leastSubnormal := by
    rw [f64Value_sub_eq, isNeg_withSign neg hk63, magKey_withSign neg hk63, ← mul_sub, abs_mul, abs_signFactor, one_mul]
  refine ⟨by rwa [isFinite_iff, magKey_withSign neg hk63], fun z _ => ?_⟩
  obtain ⟨hnear, htie⟩ := h (magKey z)
  obtain ⟨hzero, hzeroTie⟩ := h 0
  rw [hr, f64Value_sub_eq, mul_le_mul_iff_left₀ leastSubnormal_pos, mul_left_inj' leastSubnormal_pos.ne',
    abs_signFactor_sub _ _ (Nat.cast_nonneg _) hμ, mant_mod_two, magKey_withSign neg hk63]
  split
  next hsign =>
    refine ⟨hnear, fun hsame hne => htie hsame fun hkey => hne ?_⟩
    rw [f64Value_withSign neg hk63, f64Value_eq, hsign, hkey]
  next =>
    have hz : (0 : ℚ) ≤ keyUnits (magKey z) := Nat.cast_nonneg _
    rw [keyUnits_zero, Nat.cast_zero, zero_sub, abs_neg, abs_of_nonneg hμ] at hzero hzeroTie
    refine ⟨by linarith, fun hsame _ => ?_⟩
    rcases eq_or_ne k 0 with rfl | hk0
    · rfl
    · exact hzeroTie (by linarith) hk0.symm

theorem NearestKey.roundedTo {μ : ℚ} {k : ℕ} (h : NearestKey μ k) (hμ : 0 ≤ μ) (neg : Bool) :
    RoundedTo (signFactor neg * (μ * leastSubnormal)) (withSign neg (min infBits k)) := by
  have hmag : 0 ≤ μ * leastSubnormal := mul_nonneg hμ leastSubnormal_pos.le
  have habs : |signFactor neg * (μ * leastSubnormal)| = μ * leastSubnormal := by
    rw [abs_mul, abs_signFactor, one_mul, abs_of_nonneg hmag]
  rw [RoundedTo, habs]
  refine ⟨fun hlow => ?_, fun hover => ?_⟩
  · have hk : k < infBits := by
      rw [← not_le, h.infBits_le_iff]
      exact not_le.2 hlow
    rw [min_eq_right hk.le]
    exact h.roundsTo hμ hk neg
  · rw [min_eq_left (h.infBits_le_iff.2 hover), withSign_infBits]
    have hpos := overflowBound_pos.trans_le hover
    cases neg
    · simp [hmag]
    · simp [hpos]

theorem roundedTo_zero (neg : Bool) : RoundedTo 0 (withSign neg 0) := by
  simpa using nearestKey_zero.roundedTo le_rfl neg

/-- `roundPack` rounds the value it is given. -/
theorem roundPack_roundedTo {m : ℕ} {e : ℤ} {sticky : Bool} {ρ : ℚ} (neg : Bool) (hρ : StickyRest sticky ρ)
    (hbits : sticky = true → 2 ^ 53 ≤ m) : RoundedTo (signFactor neg * ((m + ρ) * 2 ^ e)) (roundPack neg m e sticky) := by
  rcases eq_or_ne m 0 with rfl | hm
  · have hzero : ρ = 0 := by simpa using hρ.2.2.not.1 fun h => absurd (hbits h) (by norm_num)
    simpa [hzero, roundPack] using roundedTo_zero neg
  · obtain ⟨k, hk, hpack⟩ := roundPack_nearestKey (e := e) neg hm hρ hbits
    have := leastSubnormal_pos
    have := hρ.1
    rw [hpack, ← div_mul_cancel₀ ((m + ρ) * 2 ^ e) leastSubnormal_pos.ne']
    exact hk.roundedTo (by positivity) neg

theorem roundPack_roundedTo_exact (neg : Bool) (m : ℕ) (e : ℤ) :
    RoundedTo (signFactor neg * (m * 2 ^ e)) (roundPack neg m e false) := by
  simpa using roundPack_roundedTo (e := e) neg stickyRest_false (m := m) (by simp)

/-! ### The operations on finite operands -/

/-- The sum of the significands at the smaller exponent. -/
def alignedSum (a b : F64) : ℤ :=
  signedMant (isNeg a) (mant a * 2 ^ (expo a - min (expo a) (expo b)).toNat) +
    signedMant (isNeg b) (mant b * 2 ^ (expo b - min (expo a) (expo b)).toNat)

section
variable {a b : F64} (ha : isFinite a = true) (hb : isFinite b = true)
include ha hb

theorem fadd_eq : fadd a b =
    if alignedSum a b = 0 then withSign (isNeg a && isNeg b) 0
    else roundPack (decide (alignedSum a b < 0)) (alignedSum a b).natAbs (min (expo a) (expo b)) false := by
  simp only [fadd, isNaN_eq_false ha, isNaN_eq_false hb, isInf_eq_false ha, isInf_eq_false hb]
  rfl

theorem fmul_eq : fmul a b = roundPack (isNeg a != isNeg b) (mant a * mant b) (expo a + expo b) false := by
  simp [fmul, isNaN_eq_false ha, isNaN_eq_false hb, isInf_eq_false ha, isInf_eq_false hb]

theorem fdiv_eq (hzero : mant b ≠ 0) : fdiv a b =
    roundPack (isNeg a != isNeg b) (mant a * 2 ^ 120 / mant b) (expo a - expo b - 120)
      (mant a * 2 ^ 120 % mant b != 0) := by
  simp [fdiv, isNaN_eq_false ha, isNaN_eq_false hb, isInf_eq_false ha, isInf_eq_false hb, hzero]

end

theorem signFactor_mul_natAbs (v : ℤ) : signFactor (decide (v < 0)) * (v.natAbs : ℚ) = v := by
  rw [Nat.cast_natAbs, Int.cast_abs]
  rcases lt_or_ge v 0 with h | h
  · simp [h, abs_of_neg (Int.cast_lt_zero.2 h : (v : ℚ) < 0)]
  · simp [not_lt.2 h, abs_of_nonneg (Int.cast_nonneg h : (0 : ℚ) ≤ v)]

theorem roundPack_int_roundedTo (v e : ℤ) :
    RoundedTo (v * 2 ^ e) (roundPack (decide (v < 0)) v.natAbs e false) := by
  have := roundPack_roundedTo_exact (decide (v < 0)) v.natAbs e
  rwa [← mul_assoc, signFactor_mul_natAbs] at this

theorem signedMant_mul_two_zpow (neg : Bool) (m : ℕ) {e e' : ℤ} (h : e' ≤ e) :
    (signedMant neg (m * 2 ^ (e - e').toNat) : ℚ) * 2 ^ e' = signedMant neg m * 2 ^ e := by
  rw [cast_signedMant, cast_signedMant, Nat.cast_mul, Nat.cast_pow, Nat.cast_ofNat, ← zpow_natCast,
    Int.toNat_of_nonneg (by omega), mul_assoc, mul_assoc, mul_assoc, ← zpow_add₀ two_ne_zero, sub_add_cancel]

theorem f64Value_add (a b : F64) : f64Value a + f64Value b = alignedSum a b * 2 ^ min (expo a) (expo b) := by
  rw [alignedSum, Int.cast_add, add_mul, signedMant_mul_two_zpow _ _ (min_le_left _ _),
    signedMant_mul_two_zpow _ _ (min_le_right _ _), ← f64Value_eq_signedMant, ← f64Value_eq_signedMant]

theorem fadd_roundedTo {a b : F64} (ha : isFinite a = true) (hb : isFinite b = true) :
    RoundedTo (f64Value a + f64Value b) (fadd a b) := by
  rw [fadd_eq ha hb, f64Value_add]
  split
  next hzero => rw [hzero, Int.cast_zero, zero_mul]; exact roundedTo_zero _
  next => exact roundPack_int_roundedTo _ _

theorem isNeg_fneg (b : F64) : isNeg (fneg b) = !isNeg b := by
  rw [isNeg, fneg, BitVec.msb_xor, show (0x8000000000000000#64).msb = true by decide, Bool.xor_true, isNeg]

theorem magKey_fneg (b : F64) : magKey (fneg b) = magKey b := by
  rw [magKey, magKey, fneg, BitVec.toNat_and, BitVec.toNat_xor, Nat.and_xor_distrib_right, BitVec.toNat_and,
    show (0x8000000000000000#64).toNat &&& (0x7FFFFFFFFFFFFFFF#64).toNat = 0 by decide, Nat.xor_zero]

theorem isFinite_fneg (b : F64) : isFinite (fneg b) = isFinite b := by
  rw [Bool.eq_iff_iff, isFinite_iff, isFinite_iff, magKey_fneg]

theorem f64Value_fneg (b : F64) : f64Value (fneg b) = -f64Value b := by
  rw [f64Value_eq, f64Value_eq, isNeg_fneg, magKey_fneg, signFactor_not, neg_mul]

theorem fsub_roundedTo {a b : F64} (ha : isFinite a = true) (hb : isFinite b = true) :
    RoundedTo (f64Value a - f64Value b) (fsub a b) := by
  rw [sub_eq_add_neg, ← f64Value_fneg]
  exact fadd_roundedTo ha (by rwa [isFinite_fneg])

theorem fmul_roundedTo {a b : F64} (ha : isFinite a = true) (hb : isFinite b = true) :
    RoundedTo (f64Value a * f64Value b) (fmul a b) := by
  have hprod : f64Value a * f64Value b =
      signFactor (isNeg a != isNeg b) * ((mant a * mant b : ℕ) * 2 ^ (expo a + expo b)) := by
    rw [f64Value_eq_signedMant, f64Value_eq_signedMant, cast_signedMant, cast_signedMant, signFactor_bne,
      zpow_add₀ two_ne_zero, Nat.cast_mul]
    ring
  rw [hprod, fmul_eq ha hb]
  exact roundPack_roundedTo_exact _ _ _

theorem mant_lt (x : F64) : mant x < 2 ^ 53 := by
  have := Nat.mod_lt (magKey x) (show 0 < 2 ^ 52 by norm_num)
  rw [mant, fracField_eq]
  split <;> omega

/-- A fraction of naturals as its integer part and the rest. -/
theorem cast_div_add_mod_div (n : ℕ) {d : ℕ} (hd : 0 < d) : ((n / d : ℕ) : ℚ) + (n % d : ℕ) / d = n / d := by
  have hd' : (d : ℚ) ≠ 0 := Nat.cast_ne_zero.2 hd.ne'
  have hn : (d : ℚ) * (n / d : ℕ) + (n % d : ℕ) = n := by exact_mod_cast Nat.div_add_mod n d
  rw [← hn]
  field_simp

theorem stickyRest_mod (n d : ℕ) (hd : 0 < d) : StickyRest (n % d != 0) ((n % d : ℕ) / d : ℚ) := by
  have hd' : (0 : ℚ) < d := by exact_mod_cast hd
  refine ⟨by positivity, ?_, ?_⟩
  · rw [div_lt_one hd']; exact_mod_cast Nat.mod_lt n hd
  · rw [bne_iff_ne, ne_eq, ne_eq, div_eq_zero_iff, Nat.cast_eq_zero]
    simp [hd.ne']

/-- A quotient keeps 67 bits or more before the sticky bit, because the significands have at most 53. -/
theorem quotient_bits {n d : ℕ} (hd0 : 0 < d) (hd : d < 2 ^ 53) (hrest : n * 2 ^ 120 % d ≠ 0) : 2 ^ 53 ≤ n * 2 ^ 120 / d := by
  have hn : n ≠ 0 := by rintro rfl; simp at hrest
  rw [Nat.le_div_iff_mul_le hd0]
  omega

theorem fdiv_roundedTo {a b : F64} (ha : isFinite a = true) (hb : isFinite b = true) (hzero : f64Value b ≠ 0) :
    RoundedTo (f64Value a / f64Value b) (fdiv a b) := by
  have hmb : mant b ≠ 0 := fun h => hzero (by simp [f64Value, h])
  have hpos := Nat.pos_of_ne_zero hmb
  have hquot : f64Value a / f64Value b = signFactor (isNeg a != isNeg b) *
      (((mant a * 2 ^ 120 / mant b : ℕ) + (mant a * 2 ^ 120 % mant b : ℕ) / mant b) * 2 ^ (expo a - expo b - 120)) := by
    have hscale : (2 : ℚ) ^ (expo a - expo b - 120) = 2 ^ expo a / 2 ^ expo b / 2 ^ 120 := by
      rw [zpow_sub₀ two_ne_zero, zpow_sub₀ two_ne_zero]; rfl
    rw [cast_div_add_mod_div _ hpos, hscale, signFactor_bne_div, f64Value_eq_signedMant, f64Value_eq_signedMant,
      cast_signedMant, cast_signedMant, Nat.cast_mul, Nat.cast_pow, Nat.cast_ofNat]
    field_simp
  rw [hquot, fdiv_eq ha hb hmb]
  refine roundPack_roundedTo _ (stickyRest_mod _ _ hpos) fun h => ?_
  exact quotient_bits hpos (mant_lt b) (by simpa using h)

/-- Settles O28: each result is the exact one at a common exponent, rounded by `roundPack`, and a difference is the sum with the
other sign. -/
theorem sumsAndProductsAreRounded : Obligations.SumsAndProductsAreRounded := by
  intro a b ha hb p hp
  simp only [List.mem_cons, List.not_mem_nil, or_false] at hp
  rcases hp with rfl | rfl | rfl
  · exact fadd_roundedTo ha hb
  · exact fsub_roundedTo ha hb
  · exact fmul_roundedTo ha hb

/-- Settles O29: the quotient is formed to more bits than are kept, and its remainder is what the sticky bit tells. -/
theorem quotientsAreRounded : Obligations.QuotientsAreRounded :=
  fun _ _ ha hb hzero => fdiv_roundedTo ha hb hzero

/-! ### Integers as values -/

theorem two_pow_mul_leastSubnormal : (2 : ℚ) ^ 1074 * leastSubnormal = 1 := by
  rw [leastSubnormal, ← zpow_natCast, ← zpow_add₀ two_ne_zero]
  norm_num

/-- An integer of 53 bits below a greater power of two. It is stated for all exponents, since the ones it is used at are too
large to evaluate. -/
theorem mul_two_pow_lt {m s t : ℕ} (hm : m ≤ 2 ^ 53) (hst : s < t) : m * 2 ^ s < 2 ^ 53 * 2 ^ t := calc
  m * 2 ^ s ≤ 2 ^ 53 * 2 ^ s := by gcongr
  _ < 2 ^ 53 * 2 ^ t := by gcongr; norm_num

/-- The encodings reach every integer of 53 bits. -/
theorem exists_finite_eq_int {n : ℤ} (hn : |n| ≤ 2 ^ 53) : ∃ z, isFinite z = true ∧ f64Value z = n := by
  have hm : n.natAbs ≤ 2 ^ 53 := by rw [Int.abs_eq_natAbs] at hn; exact_mod_cast hn
  obtain ⟨j, hj⟩ := exists_keyUnits_eq hm 1074
  have hlt : j < infBits := by
    rw [← keyUnits_strictMono.lt_iff_lt, hj, keyUnits_infBits]
    exact mul_two_pow_lt hm (by norm_num)
  have hj63 : j < 2 ^ 63 := hlt.trans (by decide)
  refine ⟨withSign (decide (n < 0)) j, by rwa [isFinite_iff, magKey_withSign _ hj63], ?_⟩
  rw [f64Value_withSign _ hj63, hj, Nat.cast_mul, Nat.cast_pow, Nat.cast_ofNat, mul_assoc, two_pow_mul_leastSubnormal,
    mul_one, signFactor_mul_natAbs]

/-- A value that can be encoded is kept by rounding. -/
theorem eq_of_roundsTo {q : ℚ} {r z : F64} (h : roundsTo q r) (hz : isFinite z = true) (hq : f64Value z = q) :
    f64Value r = q := by
  have hle := (h.2 z hz).1
  rwa [hq, sub_self, abs_zero, abs_nonpos_iff, sub_eq_zero] at hle

theorem two_pow_lt_overflowBound : (2 : ℚ) ^ (53 : ℤ) < overflowBound := calc
  (2 : ℚ) ^ (53 : ℤ) < 1 * 2 ^ (1023 : ℤ) := by rw [one_mul]; exact zpow_lt_zpow_right₀ one_lt_two (by norm_num)
  _ ≤ overflowBound := mul_le_mul_of_nonneg_right (by norm_num) (by positivity)

theorem f64OfInt_roundedTo (n : ℤ) : RoundedTo n (f64OfInt n) := by
  simpa [f64OfInt] using roundPack_int_roundedTo n 0

theorem f64OfInt_exact {n : ℤ} (hn : |n| ≤ 2 ^ 53) : isFinite (f64OfInt n) = true ∧ f64Value (f64OfInt n) = n := by
  have hbound : |(n : ℚ)| < overflowBound :=
    lt_of_le_of_lt (by exact_mod_cast hn) two_pow_lt_overflowBound
  obtain ⟨z, hz, hzn⟩ := exists_finite_eq_int hn
  have hround := (f64OfInt_roundedTo n).1 hbound
  exact ⟨hround.1, eq_of_roundsTo hround hz hzn⟩

theorem fle_eq_false_of_isNaN {a b : F64} (h : isNaN a = true ∨ isNaN b = true) : fle a b = false := by
  rcases h with h | h <;> simp [fle, h]

/-- Settles O27: an integer of 53 bits is one of the values that rounding keeps, and order keys are ordered as the values are. -/
theorem integersAndComparisonsAreExact : Obligations.IntegersAndComparisonsAreExact :=
  ⟨fun _ hn => f64OfInt_exact hn, fun _ _ ha hb => ⟨fle_iff ha hb, fle_iff hb ha⟩,
    fun _ _ h => ⟨fle_eq_false_of_isNaN h, fle_eq_false_of_isNaN h.symm⟩⟩

/-! ### The functions to integers -/

/-- The part of the magnitude below its integer part. -/
def restFraction (x : F64) : ℚ := restPart x / (2 ^ (-expo x).toNat : ℕ)

theorem restFraction_nonneg (x : F64) : 0 ≤ restFraction x := by unfold restFraction; positivity

theorem restFraction_lt_one (x : F64) : restFraction x < 1 := by
  rw [restFraction, div_lt_one (by positivity)]
  exact_mod_cast Nat.mod_lt _ (by positivity)

theorem restPart_eq_zero_iff (x : F64) : restPart x = 0 ↔ restFraction x = 0 := by
  simp [restFraction]

theorem half_le_restFraction_iff (x : F64) : 2 ^ (-expo x).toNat ≤ 2 * restPart x ↔ 1 / 2 ≤ restFraction x := by
  rw [restFraction, div_le_div_iff₀ two_pos (by positivity), one_mul, mul_comm (restPart x : ℚ)]
  exact_mod_cast Iff.rfl

theorem f64Value_eq_whole_add_rest (x : F64) : f64Value x = signFactor (isNeg x) * (wholePart x + restFraction x) := by
  have hexp : expo x = (expo x).toNat - (-expo x).toNat := by omega
  have hmag : (mant x : ℚ) * 2 ^ expo x = ((mant x * 2 ^ (expo x).toNat : ℕ) : ℚ) / (2 ^ (-expo x).toNat : ℕ) := by
    conv_lhs => rw [hexp]
    rw [zpow_sub₀ two_ne_zero, zpow_natCast, zpow_natCast]
    push_cast
    ring
  rw [restFraction, wholePart, restPart, cast_div_add_mod_div _ (by positivity), ← hmag, ← mul_assoc, ← cast_signedMant,
    f64Value_eq_signedMant]

theorem floor_whole_add {w : ℕ} {ρ : ℚ} (h0 : 0 ≤ ρ) (h1 : ρ < 1) : ⌊(w : ℚ) + ρ⌋ = w := by
  rw [Int.floor_eq_iff]
  exact ⟨by simpa using h0, by simpa using h1⟩

theorem ceil_whole_add {w : ℕ} {ρ : ℚ} (h0 : 0 ≤ ρ) (h1 : ρ < 1) :
    ⌈(w : ℚ) + ρ⌉ = ((if ρ = 0 then w else w + 1 : ℕ) : ℤ) := by
  split
  next h => simp [h]
  next h =>
    have hpos := lt_of_le_of_ne h0 (Ne.symm h)
    rw [Int.ceil_eq_iff]
    push_cast
    exact ⟨by linarith, by linarith⟩

/-- `r` is an integer nearest `q`, the one farther from zero where two are as near (00_scope.md R9). -/
def RoundsAway (q : ℚ) (r : ℤ) : Prop := ∀ n : ℤ, |q - r| ≤ |q - n| ∧ (|q - r| = |q - n| → |n| ≤ |r|)

theorem RoundsAway.neg {q : ℚ} {r : ℤ} (h : RoundsAway q r) : RoundsAway (-q) (-r) := by
  intro n
  have hflip (i : ℤ) : |-q - i| = |q - (-i : ℤ)| := by
    rw [← abs_neg]; push_cast; ring_nf
  have hn := h (-n)
  rw [abs_neg n] at hn
  rwa [hflip, hflip, neg_neg, abs_neg r]

/-- Only an integer between the integer part and the rounded one can be as near, and it is no farther from zero. -/
theorem roundsAway_whole_add {w : ℕ} {ρ : ℚ} (h0 : 0 ≤ ρ) (h1 : ρ < 1) :
    RoundsAway (w + ρ) ((if 1 / 2 ≤ ρ then w + 1 else w : ℕ) : ℤ) := by
  intro n
  have hbetween {r : ℕ} (hw : (w : ℚ) ≤ n) (hr : (n : ℚ) ≤ r) : |n| ≤ |(r : ℤ)| :=
    abs_le_abs_of_nonneg (w.cast_nonneg.trans (by exact_mod_cast hw)) (by exact_mod_cast hr)
  have hside : (n : ℚ) ≤ w ∨ (w : ℚ) + 1 ≤ n := by exact_mod_cast le_or_gt n w
  split
  next hup =>
    have hr : |(w : ℚ) + ρ - ((w + 1 : ℕ) : ℤ)| = 1 - ρ := by
      rw [abs_of_neg (by push_cast; linarith)]; push_cast; ring
    rw [hr]
    rcases hside with hlow | hhigh
    · rw [abs_of_nonneg (by linarith)]
      exact ⟨by linarith, fun h => hbetween (by linarith) (by push_cast; linarith)⟩
    · rw [abs_of_neg (by linarith)]
      exact ⟨by linarith, fun h => hbetween (by linarith) (by push_cast; linarith)⟩
  next hdown =>
    have hr : |(w : ℚ) + ρ - (w : ℤ)| = ρ := by
      rw [Int.cast_natCast, add_sub_cancel_left, abs_of_nonneg h0]
    rw [hr]
    rcases hside with hlow | hhigh
    · rw [abs_of_nonneg (by linarith)]
      exact ⟨by linarith, fun h => hbetween (by linarith) hlow⟩
    · rw [abs_of_neg (by linarith)]
      exact ⟨by linarith, fun h => by linarith⟩

/-- Truncation is the floor of the magnitude, whichever the sign; a zero of either sign truncates to 0. -/
theorem truncF_eq {x : F64} (hx : isFinite x = true) :
    truncF x = if 0 ≤ f64Value x then ⌊f64Value x⌋ else ⌈f64Value x⌉ := by
  have h0 := restFraction_nonneg x
  have hfloor := floor_whole_add (w := wholePart x) h0 (restFraction_lt_one x)
  have hw : (0 : ℚ) ≤ wholePart x := Nat.cast_nonneg _
  rw [truncF, if_pos hx, f64Value_eq_whole_add_rest]
  cases isNeg x
  case false => rw [signFactor_false, one_mul, if_pos (by positivity), hfloor, signedMant]; rfl
  case true =>
    rw [signFactor_true, neg_one_mul, Int.ceil_neg, hfloor, signedMant, if_pos rfl]
    split
    next h =>
      have hzero : (wholePart x : ℚ) + restFraction x = 0 := by linarith
      have hwhole : (wholePart x : ℚ) = 0 := by linarith
      rw [hzero, Nat.cast_eq_zero.1 hwhole]
      simp
    next => rfl

theorem floorF_eq {x : F64} (hx : isFinite x = true) : floorF x = ⌊f64Value x⌋ := by
  have h0 := restFraction_nonneg x
  have h1 := restFraction_lt_one x
  rw [floorF, if_pos hx, f64Value_eq_whole_add_rest]
  simp only [restPart_eq_zero_iff]
  cases isNeg x
  case false => simp [floor_whole_add h0 h1]
  case true => rw [signFactor_true, neg_one_mul, Int.floor_neg, ceil_whole_add h0 h1, if_pos rfl]

theorem ceilF_eq {x : F64} (hx : isFinite x = true) : ceilF x = ⌈f64Value x⌉ := by
  have h0 := restFraction_nonneg x
  have h1 := restFraction_lt_one x
  rw [ceilF, if_pos hx, f64Value_eq_whole_add_rest]
  simp only [restPart_eq_zero_iff]
  cases isNeg x
  case false => simp [ceil_whole_add h0 h1]
  case true => rw [signFactor_true, neg_one_mul, Int.ceil_neg, floor_whole_add h0 h1, if_pos rfl]

theorem rndAwayF_roundsAway {x : F64} (hx : isFinite x = true) : RoundsAway (f64Value x) (rndAwayF x) := by
  have haway := roundsAway_whole_add (w := wholePart x) (restFraction_nonneg x) (restFraction_lt_one x)
  rw [rndAwayF, if_pos hx, f64Value_eq_whole_add_rest]
  simp only [half_le_restFraction_iff]
  cases isNeg x
  case false => rwa [signFactor_false, one_mul]
  case true => rw [signFactor_true, neg_one_mul]; exact haway.neg

/-- Settles O26: each function is told from the integer part of the magnitude and whether anything, or a half, is left. -/
theorem roundingFunctionsAreExact : Obligations.RoundingFunctionsAreExact :=
  fun _ hx => ⟨floorF_eq hx, ceilF_eq hx, truncF_eq hx, rndAwayF_roundsAway hx⟩

end Sys2Proof.Proofs
end

section
/-!
PROOFS. One core step as a move: which of the few updates of the life cycle it is, and under what premises (43_pipeline.md R230).
What every move keeps, every run of a command keeps, and with the host's accesses and a reset every step.
-/
namespace Sys2Proof.Proofs

open Sys2Proof Sys2Proof.Machine

/-- What the check stage of a whole-image command has established when the command executes (60_exceptions.md R322, R323). -/
def Fits (s : State) : Prop := s.height * s.width ≤ s.maxPix ∧ 1 ≤ s.cfgP ∧ s.cfgP ≤ 8 ∧ 1 ≤ s.cfgR

/-- The state a core step of the command in CMD can lead to. `coreStep_move` ties it to the model. -/
inductive CoreMove (s : State) : State → Prop
  | idle (phase : s.flight.phase = .idle) : CoreMove s s
  | reject (phase : s.flight.phase = .check) (e : Code) (error : e ≠ .ok) : CoreMove s (s.raise e)
  | compute (phase : s.flight.phase = .check) (small : s.imageCommand = false) : CoreMove s (Laws.executing s)
  | scan (phase : s.flight.phase = .check) (image : s.imageCommand = true) (fits : Fits s) (first : Phase)
      (isFirst : first = .fill ∨ first = .pass1) :
      CoreMove s { s with flight := { phase := first, row := s.cfgR, col := s.cfgR } }
  | fill (phase : s.flight.phase = .fill) (image : s.imageCommand = true) :
      CoreMove s { s.zeroFillDesc with flight := { s.flight with phase := .pass1 } }
  | pixel (phase : s.flight.phase = .pass1 ∨ s.flight.phase = .pass2) (image : s.imageCommand = true)
      (interior : s.inInterior s.flight.row s.flight.col = true) (v : Byte) :
      CoreMove s (s.setDescAt s.flight.row s.flight.col v).advance
  | bounds (phase : s.flight.phase = .pass1 ∨ s.flight.phase = .pass2) (o : OutOfBounds) : CoreMove s (s.raiseBounds o)
  | second (phase : s.flight.phase = .pass1) (two : s.twoPasses = true)
      (done : s.inInterior s.flight.row s.flight.col = false) : CoreMove s s.startSecond
  | finish (busy : s.flight.phase ≠ .idle) (p : Pending) (noResult : s.imageCommand = true → p = {}) :
      CoreMove s (s.finish p)
  | complete (phase : s.flight.phase = .complete) : CoreMove s s.complete

/-! ### The command in CMD -/

theorem imageCommand_eq_false_of_nothing {s : State} (h : (planOfWord s.cmd).work = .nothing) :
    s.imageCommand = false := by
  simp [State.imageCommand, h]

theorem imageCommand_eq_false_of_component {s : State} {f : State → Except OutOfBounds Pending}
    (h : (planOfWord s.cmd).work = .component f) : s.imageCommand = false := by
  simp [State.imageCommand, h]

theorem imageCommand_of_image {s : State} {z : Bool} {f : Pass} {g : Option Pass}
    (h : (planOfWord s.cmd).work = .image z f g) : s.imageCommand = true := by
  simp [State.imageCommand, h]

theorem twoPasses_of_image {s : State} {z : Bool} {f g : Pass} (h : (planOfWord s.cmd).work = .image z f (some g)) :
    s.twoPasses = true := by
  simp [State.twoPasses, h]

theorem imageCommand_of_twoPasses {s : State} (h : s.twoPasses = true) : s.imageCommand = true := by
  unfold State.twoPasses at h
  split at h
  · exact imageCommand_of_image ‹_›
  · cases h

/-- Every whole-image command reads P, R and DIM (30_encoding.md R131). -/
theorem planOf_image_reads {i : Instr} {z : Bool} {f : Pass} {g : Option Pass} (h : (planOf i).work = .image z f g) :
    (planOf i).reads.p = true ∧ (planOf i).reads.r = true ∧ (planOf i).reads.dim = true := by
  cases i
  case lbpN | lbpB | rilbp | ulbp | albpN | albpB | ripass => exact ⟨rfl, rfl, rfl⟩
  all_goals cases h

/-- A whole-image command that passes its checks has an image that fits and a legal P and R. -/
theorem fits_of_checkCode {s : State} {z : Bool} {f : Pass} {g : Option Pass}
    (hw : (planOfWord s.cmd).work = .image z f g) (hc : checkCode (planOfWord s.cmd) s = none) : Fits s := by
  obtain ⟨-, hconfig, hwidth, -⟩ := (Laws.checkCode_none_iff _ _).1 hc
  obtain ⟨hp, hr, hd⟩ : (planOfWord s.cmd).reads.p = true ∧ (planOfWord s.cmd).reads.r = true ∧
      (planOfWord s.cmd).reads.dim = true := by
    revert hw
    unfold planOfWord
    split
    · exact planOf_image_reads
    · exact fun hw => by cases hw
  simp [badConfig, hp, hr, hd] at hconfig
  simp [badWidth, hp] at hwidth
  unfold Fits
  omega

/-- A failed check reports an error. -/
theorem checkCode_ne_ok {k : Plan} {s : State} {e : Code} (h : checkCode k s = some e) : e ≠ .ok := by
  unfold checkCode at h
  split_ifs at h <;> cases h <;> decide

/-! ### Each phase is a move -/

theorem startWork_move {s : State} (phase : s.flight.phase = .check)
    (hc : checkCode (planOfWord s.cmd) s = none) : CoreMove s (s.startWork (planOfWord s.cmd).work) := by
  cases hw : (planOfWord s.cmd).work with
  | nothing => exact .finish (by simp [phase]) {} (fun _ => rfl)
  | component f => exact .compute phase (imageCommand_eq_false_of_component hw)
  | image z f g =>
    exact .scan phase (imageCommand_of_image hw) (fits_of_checkCode hw hc) _ (by cases z <;> simp)

theorem fillStep_move {s : State} (phase : s.flight.phase = .fill) :
    CoreMove s (fillStep (planOfWord s.cmd).work s) := by
  have hfinish : CoreMove s (s.finish {}) := .finish (by simp [phase]) {} (fun _ => rfl)
  cases hw : (planOfWord s.cmd).work with
  | nothing => exact hfinish
  | component f => exact hfinish
  | image z f g =>
    cases z with
    | false => exact hfinish
    | true => exact .fill phase (imageCommand_of_image hw)

theorem pixelStep_move {s : State} (phase : s.flight.phase = .pass1 ∨ s.flight.phase = .pass2)
    (image : s.imageCommand = true) (interior : s.inInterior s.flight.row s.flight.col = true) (f : Pass) :
    CoreMove s (pixelStep f s) := by
  rcases Laws.pixelStep_cases f s with ⟨v, -, h⟩ | ⟨o, -, h⟩
  · exact h ▸ .pixel phase image interior v
  · exact h ▸ .bounds phase o

theorem firstPassStep_move {s : State} (phase : s.flight.phase = .pass1) :
    CoreMove s (firstPassStep (planOfWord s.cmd).work s) := by
  have hfinish : CoreMove s (s.finish {}) := .finish (by simp [phase]) {} (fun _ => rfl)
  cases hw : (planOfWord s.cmd).work with
  | nothing => exact hfinish
  | component compute =>
    simp only [firstPassStep]
    cases compute s with
    | ok p => exact .finish (by simp [phase]) p (by simp [imageCommand_eq_false_of_component hw])
    | error o => exact .bounds (.inl phase) o
  | image z f g =>
    simp only [firstPassStep]
    split
    · next interior => exact pixelStep_move (.inl phase) (imageCommand_of_image hw) interior f
    · next done =>
      cases g with
      | none => exact hfinish
      | some g => exact .second phase (twoPasses_of_image hw) (eq_false_of_ne_true done)

theorem secondPassStep_move {s : State} (phase : s.flight.phase = .pass2) :
    CoreMove s (secondPassStep (planOfWord s.cmd).work s) := by
  have hfinish : CoreMove s (s.finish {}) := .finish (by simp [phase]) {} (fun _ => rfl)
  cases hw : (planOfWord s.cmd).work with
  | nothing => exact hfinish
  | component f => exact hfinish
  | image z f g =>
    cases g with
    | none => exact hfinish
    | some g =>
      simp only [secondPassStep]
      split
      · next interior => exact pixelStep_move (.inr phase) (imageCommand_of_image hw) interior g
      · exact hfinish

/-- Every core step is one of the moves. -/
theorem coreStep_move (s : State) : CoreMove s (coreStep (planOfWord s.cmd) s) := by
  rcases Laws.coreStep_cases (planOfWord s.cmd) s with ⟨phase, h⟩ | ⟨phase, e, hc, h⟩ | ⟨phase, hc, h⟩ | ⟨phase, h⟩ |
    ⟨phase, h⟩ | ⟨phase, h⟩ | ⟨phase, h⟩ <;> rw [h]
  · exact .idle phase
  · exact .reject phase e (checkCode_ne_ok hc)
  · exact startWork_move phase hc
  · exact fillStep_move phase
  · exact firstPassStep_move phase
  · exact secondPassStep_move phase
  · exact .complete phase

/-! ### What moves and accesses keep, steps keep -/

theorem CoreMove.cmd_eq {s t : State} (h : CoreMove s t) : t.cmd = s.cmd := by cases h <;> rfl

/-- An invariant of the moves is an invariant of a command's run, from wherever it is. -/
theorem runSteps_keeps {inv : State → Prop} (hmove : ∀ u v, CoreMove u v → inv u → inv v) (n : Nat) (s : State)
    (h : inv s) : inv (runSteps (planOfWord s.cmd) n s) := by
  induction n generalizing s with
  | zero => exact h
  | succ n ih =>
    simp only [runSteps]
    split
    · exact h
    · have hstep := coreStep_move s
      have hrest := ih _ (hmove _ _ hstep h)
      rwa [hstep.cmd_eq] at hrest

/-- What a host access can do to the state, apart from its reply: an accepted write of a register or of bytes, or nothing but the
count of free reads (log 9). -/
theorem access_keeps {inv : State → Prop} (hreply : ∀ s l, inv s → inv { s with replies := l })
    (hdraw : ∀ s n, inv s → inv { s with draws := n })
    (hcsr : ∀ s r v, (s.busy && r.locked) = false → inv s → inv (s.writeCsr r v))
    (hbytes : ∀ s b k w v, s.busy = false → k + w ≤ s.maxPix → inv s → inv (s.writeBytes b k w v))
    (a : Access) (s : State) (h : inv s) : inv (s.access a) := by
  refine hreply _ _ ?_
  rcases Laws.hostAccess_cases a s with e | ⟨w, o, r, -, -, e⟩ | ⟨w, o, b, k, -, -, e⟩ | ⟨w, o, v, r, -, -, hl, e⟩ |
    ⟨w, o, v, b, k, -, ht, hb, e⟩ <;> rw [e]
  · exact h
  · exact h
  · show inv (s.countDraw b)
    unfold State.countDraw
    split
    · exact hdraw _ _ h
    · exact h
  · exact hcsr s r v hl h
  · exact hbytes s b k w v hb (Laws.target_bytes s w o b k ht).2.2 h

/-- An invariant that does not look at the events to come, and that every move, every access and every reset keeps, holds after
every step. -/
theorem step_keeps {inv : State → Prop} (hagenda : ∀ s l, inv s → inv { s with agenda := l })
    (hmove : ∀ s t, CoreMove s t → inv s → inv t) (haccess : ∀ a s, inv s → inv (s.access a))
    (hreset : ∀ s, inv s → inv s.resetPulse) {s t : State} (hstep : step s = .next t) (h : inv s) : inv t := by
  have hrun : ∀ u, inv u → runCommand u = .next t → inv t := by
    intro u hu he
    rw [Laws.runCommand_eq_runPlan, runPlan] at he
    cases he
    exact runSteps_keeps hmove _ u hu
  rcases Laws.step_cases s with ⟨-, e⟩ | ⟨rest, -, e⟩ | ⟨rest, -, e⟩ | ⟨rest, a, -, e⟩ | ⟨rest, -, e⟩ <;>
    rw [e] at hstep
  · exact hrun s h hstep
  · exact hrun _ (hagenda s rest h) hstep
  · cases hstep
    exact hmove _ _ (coreStep_move { s with agenda := rest }) (hagenda s rest h)
  · cases hstep
    exact haccess a _ (hagenda s rest h)
  · cases hstep
    exact hreset _ (hagenda s rest h)

end Sys2Proof.Proofs
end

section
/-!
PROOFS. A good state (`State.wf`) told clause by clause, and that moves, accesses and resets keep it: O57.
-/
namespace Sys2Proof.Proofs

open Sys2Proof Sys2Proof.Machine

/-! ### The clauses of a good state -/

theorem statusOk_iff (s : State) :
    s.statusOk = true ↔ (s.busy = true ↔ s.flight.phase ≠ .idle) ∧ (s.busy = true → s.done = false) ∧
      (s.busy = true → s.ecode = .ok) ∧ (s.flight.phase = .idle → s.flight = {}) ∧
      (s.flight.phase ≠ .complete → s.flight.code = .ok ∧ s.flight.pending = {}) ∧
      (s.imageCommand = true → s.flight.pending = {}) ∧ (s.flight.code ≠ .ok → s.flight.pending = {}) := by
  simp only [State.statusOk, Bool.and_eq_true, and_assoc]
  refine and_congr ?_ (and_congr ?_ (and_congr ?_ (and_congr ?_ (and_congr ?_ (and_congr ?_ ?_)))))
  · rw [beq_iff_eq, Bool.eq_iff_iff, bne_iff_ne]
  · cases s.busy <;> simp
  · cases s.busy <;> simp
  · simp [imp_iff_not_or]
  · simp [imp_iff_not_or]
  · cases s.imageCommand <;> simp
  · simp [imp_iff_not_or]

/-- What a good state requires of the flight of a command in progress (10_state.md R48; 43_pipeline.md R230). `wf_iff` ties it to
`State.wf`. -/
structure FlightOk (s : State) (f : Flight) : Prop where
  inFlight : f.phase ≠ .idle
  clean : f.phase ≠ .complete → f.code = .ok ∧ f.pending = {}
  imagePending : s.imageCommand = true → f.pending = {}
  errorPending : f.code ≠ .ok → f.pending = {}
  fits : f.phase.executing = true → s.imageCommand = true → Fits s
  second : f.phase = .pass2 → f.pass1Done = true ∧ s.twoPasses = true

/-- The status bits and the command state of a good state: idle with nothing in flight, or BUSY with a flight in order. -/
def ControlOk (s : State) : Prop :=
  (s.busy = false ∧ s.flight = {}) ∨ (s.busy = true ∧ s.done = false ∧ s.ecode = .ok ∧ FlightOk s s.flight)

theorem geometryOk_iff (s : State) :
    s.geometryOk = true ↔ (s.flight.phase.executing = true → s.imageCommand = true → Fits s) ∧
      (s.flight.phase = .pass2 → s.flight.pass1Done = true ∧ s.twoPasses = true) := by
  simp only [State.geometryOk, Fits, Bool.and_eq_true, Bool.or_eq_true, Bool.not_eq_true', Bool.and_eq_false_iff,
    decide_eq_true_eq, bne_iff_ne, and_assoc]
  cases s.flight.phase.executing <;> cases s.imageCommand <;> simp [imp_iff_not_or]

theorem controlOk_iff (s : State) : (s.statusOk = true ∧ s.geometryOk = true) ↔ ControlOk s := by
  rw [statusOk_iff, geometryOk_iff]
  constructor
  · rintro ⟨⟨hbusy, hdone, hecode, hidle, hclean, himage, herror⟩, hfits, hsecond⟩
    cases hb : s.busy with
    | false => exact .inl ⟨hb, hidle (by simpa [hb] using hbusy)⟩
    | true => exact .inr ⟨hb, hdone hb, hecode hb, hbusy.1 hb, hclean, himage, herror, hfits, hsecond⟩
  · rintro (⟨hb, hf⟩ | ⟨hb, hdone, hecode, hf⟩)
    · simp [hb, hf, Phase.executing]
    · exact ⟨⟨by simp [hb, hf.inFlight], fun _ => hdone, fun _ => hecode, fun h => absurd h hf.inFlight, hf.clean,
        hf.imagePending, hf.errorPending⟩, hf.fits, hf.second⟩

theorem wf_iff (s : State) : s.wf = true ↔ s.memoryOk = true ∧ s.reservedOk = true ∧ ControlOk s := by
  simp only [State.wf, Bool.and_eq_true, and_assoc, ← controlOk_iff]

theorem memoryOk_iff (s : State) :
    s.memoryOk = true ↔ s.img.wf = true ∧ s.desc.wf = true ∧ s.img.below s.maxPix = true ∧ s.desc.below s.maxPix = true := by
  simp only [State.memoryOk, Bool.and_eq_true, and_assoc]

theorem reservedOk_iff (s : State) :
    s.reservedOk = true ↔
      s.ctrl &&& ~~~ctrlMask = 0#64 ∧ s.dim &&& ~~~dimMask = 0#64 ∧ s.errinfo.extractLsb' 56 8 = 0#8 := by
  simp only [State.reservedOk, Bool.and_eq_true, beq_iff_eq, and_assoc]

theorem ControlOk.inFlight {s : State} (h : ControlOk s) (phase : s.flight.phase ≠ .idle) :
    s.busy = true ∧ s.done = false ∧ s.ecode = .ok ∧ FlightOk s s.flight := by
  rcases h with ⟨-, hf⟩ | h
  · exact absurd (by rw [hf]) phase
  · exact h

theorem ControlOk.idle {s : State} (h : ControlOk s) (hb : s.busy = false) : s.flight = {} := by
  rcases h with ⟨-, hf⟩ | ⟨hbusy, -⟩
  · exact hf
  · simp [hb] at hbusy

theorem ControlOk.fits {s : State} (h : ControlOk s) (phase : s.flight.phase.executing = true)
    (image : s.imageCommand = true) : Fits s := by
  obtain ⟨-, -, -, hf⟩ := h.inFlight (by rintro e; simp [e, Phase.executing] at phase)
  exact hf.fits phase image

/-- A cell of the interior is a byte of the image. -/
theorem cellOffset_lt {s : State} {r c : Nat} (h : s.inInterior r c = true) : s.cellOffset r c < s.height * s.width := by
  simp only [State.inInterior, Bool.and_eq_true, decide_eq_true_eq] at h
  unfold State.cellOffset
  calc r * s.width + c < (r + 1) * s.width := by rw [Nat.add_mul]; omega
    _ ≤ s.height * s.width := Nat.mul_le_mul_right _ (by omega)

theorem info_reserved (o : OutOfBounds) : o.info.extractLsb' 56 8 = 0#8 := by
  unfold OutOfBounds.info
  rw [BitVec.extractLsb'_append_eq_of_le (by decide), BitVec.extractLsb'_append_eq_of_le (by decide),
    BitVec.extractLsb'_append_eq_of_le (by decide)]
  rfl

/-- A flight that waits for its completion is in order when only a component command that had no error has something pending. -/
theorem flightOk_complete {s : State} {p : Pending} {e : Code} (image : s.imageCommand = true → p = {})
    (error : e ≠ .ok → p = {}) : FlightOk s { phase := .complete, pending := p, code := e } where
  inFlight := by simp
  clean := by simp
  imagePending := image
  errorPending := error
  fits := by simp [Phase.executing]
  second := by simp

/-- A flight that executes, with nothing pending and no code, is in order. -/
theorem flightOk_executing {s : State} {f : Flight} (clean : f.code = .ok ∧ f.pending = {})
    (executing : f.phase.executing = true) (fits : s.imageCommand = true → Fits s)
    (second : f.phase = .pass2 → f.pass1Done = true ∧ s.twoPasses = true) : FlightOk s f where
  inFlight := by rintro h; simp [h, Phase.executing] at executing
  clean := fun _ => clean
  imagePending := fun _ => clean.2
  errorPending := fun _ => clean.2
  fits := fun _ => fits
  second := second

/-! ### Moves -/

theorem CoreMove.controlOk {s t : State} (h : CoreMove s t) (hs : ControlOk s) : ControlOk t := by
  cases h with
  | idle => exact hs
  | complete => exact .inl ⟨rfl, rfl⟩
  | reject phase e error =>
    obtain ⟨hb, hd, he, -⟩ := hs.inFlight (by simp [phase])
    exact .inr ⟨hb, hd, he, flightOk_complete (fun _ => rfl) (fun _ => rfl)⟩
  | bounds phase o =>
    obtain ⟨hb, hd, he, -⟩ := hs.inFlight (by rcases phase with h | h <;> simp [h])
    exact .inr ⟨hb, hd, he, flightOk_complete (fun _ => rfl) (fun _ => rfl)⟩
  | finish busy p noResult =>
    obtain ⟨hb, hd, he, -⟩ := hs.inFlight busy
    exact .inr ⟨hb, hd, he, flightOk_complete noResult (by simp)⟩
  | compute phase small =>
    obtain ⟨hb, hd, he, -⟩ := hs.inFlight (by simp [phase])
    refine .inr ⟨hb, hd, he, flightOk_executing ⟨rfl, rfl⟩ rfl (fun image => ?_) (by simp [Laws.executing])⟩
    exact absurd (small.symm.trans image) (by decide)
  | scan phase image fits first isFirst =>
    obtain ⟨hb, hd, he, -⟩ := hs.inFlight (by simp [phase])
    refine .inr ⟨hb, hd, he, flightOk_executing ⟨rfl, rfl⟩ ?_ (fun _ => fits) ?_⟩
    · rcases isFirst with rfl | rfl <;> rfl
    · rcases isFirst with rfl | rfl <;> simp
  | fill phase image =>
    obtain ⟨hb, hd, he, hf⟩ := hs.inFlight (by simp [phase])
    have fits := hf.fits (by simp [phase, Phase.executing])
    exact .inr ⟨hb, hd, he, flightOk_executing (hf.clean (by simp [phase])) rfl fits (by simp)⟩
  | pixel phase image interior v =>
    obtain ⟨hb, hd, he, hf⟩ := hs.inFlight (by rcases phase with h | h <;> simp [h])
    exact .inr ⟨hb, hd, he, hf.inFlight, hf.clean, hf.imagePending, hf.errorPending, hf.fits, hf.second⟩
  | second phase two =>
    obtain ⟨hb, hd, he, hf⟩ := hs.inFlight (by simp [phase])
    have fits := hf.fits (by simp [phase, Phase.executing])
    exact .inr ⟨hb, hd, he, flightOk_executing ⟨rfl, rfl⟩ rfl fits (fun _ => ⟨rfl, two⟩)⟩

theorem CoreMove.memoryOk {s t : State} (h : CoreMove s t) (hs : ControlOk s) (hm : s.memoryOk = true) :
    t.memoryOk = true := by
  cases h with
  | idle | reject | compute | scan | bounds | second | finish | complete => exact hm
  | fill phase image =>
    obtain ⟨himg, hdesc, himg', hdesc'⟩ := (memoryOk_iff s).1 hm
    have fits := hs.fits (by simp [phase, Phase.executing]) image
    exact (memoryOk_iff _).2 ⟨himg, Laws.wf_zeroFill _ _ hdesc, himg', Laws.below_zeroFill _ _ _ hdesc' fits.1⟩
  | pixel phase image interior v =>
    obtain ⟨himg, hdesc, himg', hdesc'⟩ := (memoryOk_iff s).1 hm
    have fits := hs.fits (by rcases phase with h | h <;> simp [h, Phase.executing]) image
    have hcell := (cellOffset_lt interior).trans_le fits.1
    exact (memoryOk_iff _).2 ⟨himg, Laws.wf_set _ _ _ hdesc, himg', Laws.below_set _ _ _ _ hdesc' hcell⟩

theorem CoreMove.reservedOk {s t : State} (h : CoreMove s t) (hr : s.reservedOk = true) : t.reservedOk = true := by
  cases h with
  | bounds phase o =>
    obtain ⟨hctrl, hdim, -⟩ := (reservedOk_iff s).1 hr
    exact (reservedOk_iff _).2 ⟨hctrl, hdim, info_reserved o⟩
  | _ => exact hr

theorem CoreMove.wf {s t : State} (h : CoreMove s t) (hs : s.wf = true) : t.wf = true := by
  obtain ⟨hm, hr, hc⟩ := (wf_iff s).1 hs
  exact (wf_iff t).2 ⟨h.memoryOk hc hm, h.reservedOk hr, h.controlOk hc⟩

/-! ### The host's writes and a reset -/

theorem not_busy_of_locked {s : State} {r : Csr} (h : (s.busy && r.locked) = false) (hr : r.locked = true) :
    s.busy = false := by
  simpa [hr] using h

/-- Nothing that the configuration or the words of an idle CORE hold bears on its status and command state. -/
theorem ControlOk.of_idle {s t : State} (h : ControlOk s) (hb : s.busy = false) (busy : t.busy = s.busy)
    (flight : t.flight = s.flight) : ControlOk t :=
  .inl ⟨busy.trans hb, flight.trans (h.idle hb)⟩

/-- Issue leaves a command that waits for its check, with every status bit but BUSY 0 (43_pipeline.md R230, stage 1). -/
theorem controlOk_issue (s : State) (w : Word) : ControlOk (s.issue w) :=
  .inr ⟨rfl, rfl, rfl,
    { inFlight := by simp
      clean := fun _ => ⟨rfl, rfl⟩
      imagePending := fun _ => rfl
      errorPending := fun _ => rfl
      fits := by simp [Phase.executing]
      second := by simp }⟩

theorem and_mask_reserved (v m : Word) : v &&& m &&& ~~~m = 0#64 := by
  rw [BitVec.and_assoc, BitVec.and_not_self]
  exact BitVec.and_zero

theorem wf_writeCsr (s : State) (r : Csr) (v : Word) (hl : (s.busy && r.locked) = false) (hs : s.wf = true) :
    (s.writeCsr r v).wf = true := by
  obtain ⟨hm, hr, hc⟩ := (wf_iff s).1 hs
  obtain ⟨hctrl, hdim, herr⟩ := (reservedOk_iff s).1 hr
  cases r with
  | id | result | progress | errinfo => exact hs
  | band | arg0 | arg1 | s => exact (wf_iff _).2 ⟨hm, hr, hc.of_idle (not_busy_of_locked hl rfl) rfl rfl⟩
  | ctrl =>
    exact (wf_iff _).2 ⟨hm, (reservedOk_iff _).2 ⟨and_mask_reserved _ _, hdim, herr⟩,
      hc.of_idle (not_busy_of_locked hl rfl) rfl rfl⟩
  | dim =>
    exact (wf_iff _).2 ⟨hm, (reservedOk_iff _).2 ⟨hctrl, and_mask_reserved _ _, herr⟩,
      hc.of_idle (not_busy_of_locked hl rfl) rfl rfl⟩
  | cmd =>
    exact (wf_iff _).2 ⟨hm, (reservedOk_iff _).2 ⟨hctrl, hdim, by simp [State.writeCsr]⟩, controlOk_issue s v⟩
  | status =>
    refine (wf_iff _).2 ⟨hm, hr, ?_⟩
    rcases hc with hidle | ⟨hb, hd, he, hf⟩
    · exact .inl hidle
    · exact .inr ⟨hb, by simp [State.writeCsr, hd], he, hf.inFlight, hf.clean, hf.imagePending, hf.errorPending,
        hf.fits, hf.second⟩

theorem wf_writeBytes (s : State) (b : Buffer) (k w : Nat) (v : Word) (hb : s.busy = false) (hk : k + w ≤ s.maxPix)
    (hs : s.wf = true) : (s.writeBytes b k w v).wf = true := by
  obtain ⟨hm, hr, hc⟩ := (wf_iff s).1 hs
  obtain ⟨himg, hdesc, himg', hdesc'⟩ := (memoryOk_iff s).1 hm
  cases b with
  | img =>
    have hwf := Laws.wf_setBytes _ k w v himg
    have hbelow := Laws.below_setBytes _ k w _ v himg' hk
    exact (wf_iff _).2 ⟨(memoryOk_iff _).2 ⟨hwf, hdesc, hbelow, hdesc'⟩, hr, hc.of_idle hb rfl rfl⟩
  | desc =>
    have hwf := Laws.wf_setBytes _ k w v hdesc
    have hbelow := Laws.below_setBytes _ k w _ v hdesc' hk
    exact (wf_iff _).2 ⟨(memoryOk_iff _).2 ⟨himg, hwf, himg', hbelow⟩, hr, hc.of_idle hb rfl rfl⟩

theorem wf_access (a : Access) (s : State) (hs : s.wf = true) : (s.access a).wf = true :=
  access_keeps (inv := fun s => s.wf = true) (fun _ _ h => h) (fun _ _ h => h) wf_writeCsr wf_writeBytes a s hs

theorem wf_resetPulse (s : State) : s.resetPulse.wf = true :=
  (wf_iff _).2 ⟨rfl, (by decide : State.reset.reservedOk = true), .inl ⟨rfl, rfl⟩⟩

theorem step_keeps_wf {s t : State} (hstep : step s = .next t) (hs : s.wf = true) : t.wf = true :=
  step_keeps (inv := fun s => s.wf = true) (fun _ _ h => h) (fun _ _ => CoreMove.wf) wf_access
    (fun s _ => wf_resetPulse s) hstep hs

/-- The parameters of a CORE: MAXPIX and the known values of sinF and cosF (00_scope.md R5, R10). -/
def params (s : State) : Nat × List Config.TrigEntry := (s.maxPix, s.trig)

theorem CoreMove.params_eq {s t : State} (h : CoreMove s t) : params t = params s := by cases h <;> rfl

theorem params_writeCsr (s : State) (r : Csr) (v : Word) : params (s.writeCsr r v) = params s := by cases r <;> rfl

theorem params_writeBytes (s : State) (b : Buffer) (k w : Nat) (v : Word) : params (s.writeBytes b k w v) = params s := by
  cases b <;> rfl

theorem step_keeps_params {s t : State} (hstep : step s = .next t) : params t = params s :=
  step_keeps (inv := fun u => params u = params s) (fun _ _ h => h) (fun _ _ hm h => hm.params_eq.trans h)
    (access_keeps (fun _ _ h => h) (fun _ _ h => h) (fun u r v _ h => (params_writeCsr u r v).trans h)
      (fun u b k w v _ _ h => (params_writeBytes u b k w v).trans h))
    (fun _ h => h) hstep rfl

/-- Settles O57: every move, access and reset keeps a good state good. -/
theorem stepKeepsGoodState : Obligations.StepKeepsGoodState := by
  intro s t hstep
  obtain ⟨hmaxPix, htrig⟩ := Prod.ext_iff.1 (step_keeps_params hstep)
  exact ⟨step_keeps_wf hstep, hmaxPix, htrig⟩

end Sys2Proof.Proofs
end

section
/-!
PROOFS. The scan place (`State.scanOk`): where the cursor goes in the interior, and that it stays where PROGRESS says: O58.
-/
namespace Sys2Proof.Proofs

open Sys2Proof Sys2Proof.Machine

/-! ### Places in row-major order -/

theorem inInterior_iff (s : State) (r c : Nat) :
    s.inInterior r c = true ↔ s.cfgR ≤ r ∧ r + s.cfgR < s.height ∧ s.cfgR ≤ c ∧ c + s.cfgR < s.width := by
  simp only [State.inInterior, Bool.and_eq_true, decide_eq_true_eq, and_assoc]

theorem placeOk_iff (s : State) (r c : Nat) :
    s.placeOk r c = true ↔ s.inInterior r c = true ∨ (r = s.endRow ∧ c = s.cfgR) := by
  simp only [State.placeOk, Bool.or_eq_true, Bool.and_eq_true, beq_iff_eq]

theorem placeIndex_start (s : State) : s.placeIndex s.cfgR s.cfgR = 0 := by simp [State.placeIndex]

theorem placeOk_start (s : State) : s.placeOk s.cfgR s.cfgR = true := by
  rw [placeOk_iff, inInterior_iff, State.endRow]
  split <;> omega

theorem placeIndex_end (s : State) : s.placeIndex s.endRow s.cfgR = s.interiorCount := by
  unfold State.placeIndex State.endRow State.interiorCount
  split
  · simp
  · simp [show s.width - 2 * s.cfgR = 0 by omega]

theorem placeIndex_of_done {s : State} {r c : Nat} (h : s.placeOk r c = true) (done : s.inInterior r c = false) :
    s.placeIndex r c = s.interiorCount := by
  rcases (placeOk_iff s r c).1 h with h | ⟨rfl, rfl⟩
  · simp [done] at h
  · exact placeIndex_end s

/-- The next place is the next pixel of the row, the first of the next row, or the end. -/
theorem placeOk_nextPlace {s : State} {r c : Nat} (h : s.inInterior r c = true) :
    s.placeOk (s.nextPlace r c).1 (s.nextPlace r c).2 = true := by
  rw [inInterior_iff] at h
  unfold State.nextPlace
  split
  · exact (placeOk_iff _ _ _).2 (.inl ((inInterior_iff _ _ _).2 (by simp only; omega)))
  · simp only
    by_cases hrow : r + 1 + s.cfgR < s.height
    · exact (placeOk_iff _ _ _).2 (.inl ((inInterior_iff _ _ _).2 (by omega)))
    · refine (placeOk_iff _ _ _).2 (.inr ⟨?_, rfl⟩)
      rw [State.endRow, if_pos (by omega)]
      omega

theorem placeIndex_nextPlace {s : State} {r c : Nat} (h : s.inInterior r c = true) :
    s.placeIndex (s.nextPlace r c).1 (s.nextPlace r c).2 = s.placeIndex r c + 1 := by
  rw [inInterior_iff] at h
  unfold State.placeIndex State.nextPlace
  split
  · simp only; omega
  · simp only
    rw [show r + 1 - s.cfgR = (r - s.cfgR) + 1 by omega, Nat.add_mul]
    omega

theorem placeIndex_lt {s : State} {r c : Nat} (h : s.inInterior r c = true) : s.placeIndex r c < s.interiorCount := by
  rw [inInterior_iff] at h
  unfold State.placeIndex State.interiorCount
  calc (r - s.cfgR) * (s.width - 2 * s.cfgR) + (c - s.cfgR)
      < (r - s.cfgR + 1) * (s.width - 2 * s.cfgR) := by rw [Nat.add_mul]; omega
    _ ≤ (s.height - 2 * s.cfgR) * (s.width - 2 * s.cfgR) := Nat.mul_le_mul_right _ (by omega)

theorem interiorCount_le (s : State) : s.interiorCount ≤ s.height * s.width :=
  Nat.mul_le_mul (Nat.sub_le _ _) (Nat.sub_le _ _)

/-- DIM holds two 16-bit fields. -/
theorem interiorCount_lt (s : State) : s.interiorCount < 2 ^ 32 :=
  calc s.interiorCount ≤ s.height * s.width := interiorCount_le s
    _ < 2 ^ 16 * 2 ^ 16 := Nat.mul_lt_mul'' (BitVec.isLt _) (BitVec.isLt _)

/-! ### PROGRESS and the cursor -/

/-- Where the cursor of a whole-image command is, by phase. `scanOk_image` ties it to `State.scanOk`. -/
def Counted (s : State) : Prop :=
  match s.flight.phase with
  | .check => s.progress = 0#64
  | .fill => s.progress = 0#64 ∧ s.flight.row = s.cfgR ∧ s.flight.col = s.cfgR
  | .pass1 =>
    s.placeOk s.flight.row s.flight.col = true ∧ s.progress.toNat = s.placeIndex s.flight.row s.flight.col
  | .pass2 =>
    s.placeOk s.flight.row s.flight.col = true ∧
      s.progress.toNat = s.interiorCount + s.placeIndex s.flight.row s.flight.col
  | .idle | .complete => True

theorem scanOk_image {s : State} (image : s.imageCommand = true) :
    s.scanOk = true ↔ s.progress.toNat ≤ 2 * s.maxPix ∧ Counted s := by
  rw [State.scanOk, Bool.and_eq_true, decide_eq_true_eq, if_pos image, Counted]
  cases s.flight.phase <;> simp [and_assoc]

theorem scanOk_small {s : State} (small : s.imageCommand = false) :
    s.scanOk = true ↔ s.progress.toNat ≤ 2 * s.maxPix ∧ (s.flight.phase = .idle ∨ s.progress = 0#64) := by
  simp [State.scanOk, small]

theorem scanOk_idle {s : State} (phase : s.flight.phase = .idle) :
    s.scanOk = true ↔ s.progress.toNat ≤ 2 * s.maxPix := by
  cases h : s.imageCommand
  · simp [scanOk_small h, phase]
  · simp [scanOk_image h, Counted, phase]

theorem progress_le_of_scanOk {s : State} (h : s.scanOk = true) : s.progress.toNat ≤ 2 * s.maxPix := by
  simp only [State.scanOk, Bool.and_eq_true, decide_eq_true_eq] at h
  exact h.1

theorem CoreMove.imageCommand_eq {s t : State} (h : CoreMove s t) : t.imageCommand = s.imageCommand := by
  simp only [State.imageCommand, h.cmd_eq]

theorem CoreMove.eq_of_idle {s t : State} (h : CoreMove s t) (idle : s.flight.phase = .idle) : t = s := by
  cases h with
  | idle => rfl
  | reject phase | compute phase | scan phase | fill phase | second phase | complete phase =>
    exact absurd (idle.symm.trans phase) (by decide)
  | pixel phase | bounds phase => rcases phase with phase | phase <;> exact absurd (idle.symm.trans phase) (by decide)
  | finish busy => exact absurd idle busy

/-- Only a pixel step counts. -/
theorem CoreMove.progress_eq_of_small {s t : State} (h : CoreMove s t) (small : s.imageCommand = false) :
    t.progress = s.progress := by
  cases h with
  | pixel phase image => exact absurd (small.symm.trans image) (by decide)
  | _ => rfl

/-- What PROGRESS counted before the pass the scan is in. -/
def passBase (s : State) : Nat := if s.flight.phase = .pass2 then s.interiorCount else 0

theorem passBase_le (s : State) : passBase s ≤ s.interiorCount := by
  unfold passBase
  split <;> omega

theorem counted_pass_iff {s : State} (phase : s.flight.phase = .pass1 ∨ s.flight.phase = .pass2) :
    Counted s ↔ s.placeOk s.flight.row s.flight.col = true ∧
      s.progress.toNat = passBase s + s.placeIndex s.flight.row s.flight.col := by
  rcases phase with phase | phase <;> simp [Counted, passBase, phase]

/-- A pixel step moves the cursor one place on and PROGRESS by 1, and DIM is too small for PROGRESS to wrap. -/
theorem counted_pixel {s : State} (phase : s.flight.phase = .pass1 ∨ s.flight.phase = .pass2)
    (interior : s.inInterior s.flight.row s.flight.col = true) (v : Byte) (h : Counted s) :
    (s.progress + 1#64).toNat ≤ 2 * s.interiorCount ∧ Counted (s.setDescAt s.flight.row s.flight.col v).advance := by
  obtain ⟨-, hprogress⟩ := (counted_pass_iff phase).1 h
  have hbase := passBase_le s
  have hlt := placeIndex_lt interior
  have hbound := interiorCount_lt s
  have hnext : (s.progress + 1#64).toNat = s.progress.toNat + 1 :=
    BitVec.toNat_add_of_lt (by simp only [BitVec.toNat_ofNat]; omega)
  refine ⟨by omega, (counted_pass_iff (s := (s.setDescAt _ _ v).advance) phase).2 ⟨placeOk_nextPlace interior, ?_⟩⟩
  calc (s.progress + 1#64).toNat = passBase s + (s.placeIndex s.flight.row s.flight.col + 1) := by omega
    _ = _ := congrArg (passBase s + ·) (placeIndex_nextPlace interior).symm

/-- The second pass starts with the count of the first. -/
theorem counted_startSecond {s : State} (phase : s.flight.phase = .pass1)
    (done : s.inInterior s.flight.row s.flight.col = false) (h : Counted s) : Counted s.startSecond := by
  simp only [Counted, phase] at h
  obtain ⟨hplace, hprogress⟩ := h
  refine ⟨placeOk_start s, ?_⟩
  show s.progress.toNat = s.interiorCount + s.placeIndex s.cfgR s.cfgR
  rw [hprogress, placeIndex_of_done hplace done, placeIndex_start, Nat.add_zero]

theorem CoreMove.counted {s t : State} (h : CoreMove s t) (image : s.imageCommand = true) (hs : Counted s) : Counted t := by
  cases h with
  | idle => exact hs
  | reject | bounds | finish | complete => trivial
  | compute phase small => exact absurd (small.symm.trans image) (by decide)
  | scan phase image fits first isFirst =>
    simp only [Counted, phase] at hs
    rcases isFirst with rfl | rfl
    · exact ⟨hs, rfl, rfl⟩
    · refine ⟨placeOk_start s, ?_⟩
      show s.progress.toNat = s.placeIndex s.cfgR s.cfgR
      rw [hs, placeIndex_start]
      rfl
  | fill phase =>
    simp only [Counted, phase] at hs
    obtain ⟨hprogress, hrow, hcol⟩ := hs
    refine ⟨?_, ?_⟩
    · show s.placeOk s.flight.row s.flight.col = true
      rw [hrow, hcol, placeOk_start]
    · show s.progress.toNat = s.placeIndex s.flight.row s.flight.col
      rw [hrow, hcol, hprogress, placeIndex_start]
      rfl
  | pixel phase image interior v => exact (counted_pixel phase interior v hs).2
  | second phase two done => exact counted_startSecond phase done hs

theorem CoreMove.progress_le {s t : State} (h : CoreMove s t) (hc : ControlOk s) (hs : s.scanOk = true) :
    t.progress.toNat ≤ 2 * t.maxPix := by
  have hle := progress_le_of_scanOk hs
  cases h with
  | pixel phase image interior v =>
    obtain ⟨-, hcounted⟩ := (scanOk_image image).1 hs
    obtain ⟨hfits, -⟩ := hc.fits (by rcases phase with h | h <;> simp [h, Phase.executing]) image
    calc (s.progress + 1#64).toNat ≤ 2 * s.interiorCount := (counted_pixel phase interior v hcounted).1
      _ ≤ 2 * s.maxPix := Nat.mul_le_mul_left 2 ((interiorCount_le s).trans hfits)
  | _ => exact hle

theorem CoreMove.scanOk {s t : State} (h : CoreMove s t) (hc : ControlOk s) (hs : s.scanOk = true) :
    t.scanOk = true := by
  have hle := h.progress_le hc hs
  have hcommand := h.imageCommand_eq
  cases hi : s.imageCommand with
  | true =>
    obtain ⟨-, hcounted⟩ := (scanOk_image hi).1 hs
    exact (scanOk_image (hcommand.trans hi)).2 ⟨hle, h.counted hi hcounted⟩
  | false =>
    refine (scanOk_small (hcommand.trans hi)).2 ⟨hle, ?_⟩
    obtain ⟨-, phase | hzero⟩ := (scanOk_small hi).1 hs
    · exact .inl (h.eq_of_idle phase ▸ phase)
    · exact .inr ((h.progress_eq_of_small hi).trans hzero)

/-! ### The host's writes and a reset -/

theorem scanOk_writeCsr (s : State) (r : Csr) (v : Word) (hl : (s.busy && r.locked) = false) (hc : ControlOk s)
    (hs : s.scanOk = true) : (s.writeCsr r v).scanOk = true := by
  have hle := progress_le_of_scanOk hs
  cases r with
  | id | result | progress | errinfo | status => exact hs
  | band | arg0 | arg1 | s | ctrl | dim =>
    have hflight := hc.idle (not_busy_of_locked hl rfl)
    exact (scanOk_idle (by simp [State.writeCsr, hflight])).2 hle
  | cmd =>
    show (s.issue v).scanOk = true
    cases hi : (s.issue v).imageCommand with
    | true => exact (scanOk_image hi).2 ⟨Nat.zero_le _, rfl⟩
    | false => exact (scanOk_small hi).2 ⟨Nat.zero_le _, .inr rfl⟩

theorem scanOk_writeBytes (s : State) (b : Buffer) (k w : Nat) (v : Word) (hs : s.scanOk = true) :
    (s.writeBytes b k w v).scanOk = true := by
  cases b <;> exact hs

theorem scanOk_resetPulse (s : State) : s.resetPulse.scanOk = true :=
  (scanOk_idle (by rfl)).2 (Nat.zero_le _)

/-- A good state whose cursor is where PROGRESS says. -/
def GoodScan (s : State) : Prop := s.wf = true ∧ s.scanOk = true

theorem controlOk_of_wf {s : State} (h : s.wf = true) : ControlOk s := ((wf_iff s).1 h).2.2

theorem goodScan_access (a : Access) (s : State) (h : GoodScan s) : GoodScan (s.access a) :=
  access_keeps (inv := GoodScan) (fun _ _ h => h) (fun _ _ h => h)
    (fun s r v hl h => ⟨wf_writeCsr s r v hl h.1, scanOk_writeCsr s r v hl (controlOk_of_wf h.1) h.2⟩)
    (fun s b k w v hb hk h => ⟨wf_writeBytes s b k w v hb hk h.1, scanOk_writeBytes s b k w v h.2⟩) a s h

/-- Settles O58: the scan place is an invariant of the moves beside the good state, which it needs for the image to fit and for an
idle CORE to have nothing in flight. -/
theorem stepKeepsScanPlace : Obligations.StepKeepsScanPlace := by
  intro s t hwf hscan hstep
  have hgood : GoodScan t := step_keeps (fun _ _ h => h)
    (fun _ _ hm h => ⟨hm.wf h.1, hm.scanOk (controlOk_of_wf h.1) h.2⟩) goodScan_access
    (fun s _ => ⟨wf_resetPulse s, scanOk_resetPulse s⟩) hstep ⟨hwf, hscan⟩
  exact hgood.2

end Sys2Proof.Proofs
end

section
/-!
PROOFS. The registers on the bus: which accesses of the CSR window reach one, what a read gives and a write does, and the values
after reset: O46, O5, O51, O52, O55, O56.
-/
namespace Sys2Proof.Proofs

open Sys2Proof Sys2Proof.Machine

/-! ### Which accesses reach a register -/

theorem csrAt_offset (r : Csr) : csrAt r.offset = some r := by
  cases r with
  | s p => revert p; decide
  | _ => decide

theorem offset_of_csrAt {a : Nat} {r : Csr} (h : csrAt a = some r) : a = r.offset := by
  have hfound := List.find?_some h
  exact (beq_iff_eq.1 hfound).symm

/-- Registers lie at multiples of 8, up to ERRINFO and from S0 to S7 (10_state.md R44). -/
theorem offset_bounds (r : Csr) : r.offset % 8 = 0 ∧ (r.offset ≤ 0x050 ∨ 0x080 ≤ r.offset ∧ r.offset ≤ 0x0B8) := by
  cases r with
  | s p => revert p; decide
  | _ => decide

theorem toNat_offset (r : Csr) : (BitVec.ofNat 18 r.offset).toNat = r.offset :=
  Nat.mod_eq_of_lt (by have := (offset_bounds r).2; omega)

/-- Below 0x1000 an access of 8 bytes at the offset of a register reaches that register, one of another width nothing. -/
theorem target_of_csrAt {o : Offset} {r : Csr} (hlt : o.toNat < 0x1000) (hr : csrAt o.toNat = some r) (s : State) (w : Nat) :
    target s w o = if w = 8 then .csr r else .none := by
  simp only [target, if_pos hlt, hr]

/-- Below 0x1000 an access anywhere else reaches nothing. -/
theorem target_of_hole {o : Offset} (hlt : o.toNat < 0x1000) (hr : csrAt o.toNat = none) (s : State) (w : Nat) :
    target s w o = .none := by
  simp only [target, if_pos hlt, hr]

theorem target_offset (s : State) (r : Csr) : target s 8 (BitVec.ofNat 18 r.offset) = .csr r := by
  have hlt : r.offset < 0x1000 := by have := (offset_bounds r).2; omega
  rw [← toNat_offset] at hlt
  rw [target_of_csrAt hlt (by rw [toNat_offset, csrAt_offset]), if_pos rfl]

/-- An access that reaches a register is of 8 bytes at the register's offset. -/
theorem eq_of_target_csr {s : State} {w : Nat} {o : Offset} {r : Csr} (h : target s w o = .csr r) :
    w = 8 ∧ o = BitVec.ofNat 18 r.offset := by
  by_cases hlt : o.toNat < 0x1000
  · cases hr : csrAt o.toNat with
    | none => simp [target_of_hole hlt hr] at h
    | some q =>
      rw [target_of_csrAt hlt hr] at h
      split at h
      · next hw =>
        cases h
        exact ⟨hw, by rw [← offset_of_csrAt hr, BitVec.ofNat_toNat, BitVec.setWidth_eq]⟩
      · cases h
  · simp only [target, if_neg hlt] at h
    split_ifs at h

theorem target_none_of_window {s : State} {w : Nat} {o : Offset} (hlt : o.toNat < 0x1000)
    (h : w ≠ 8 ∨ o.toNat % 8 ≠ 0 ∨ (0x058 ≤ o.toNat ∧ o.toNat ≤ 0x07F) ∨ 0x0C0 ≤ o.toNat) :
    target s w o = .none := by
  cases hr : csrAt o.toNat with
  | none => exact target_of_hole hlt hr s w
  | some r =>
    have hbounds := offset_bounds r
    rw [← offset_of_csrAt hr] at hbounds
    rw [target_of_csrAt hlt hr, if_neg (by omega)]

/-! ### Reads and writes of a register -/

theorem hostAccess_read_offset (r : Csr) (s : State) :
    hostAccess (.read 8 (BitVec.ofNat 18 r.offset)) s = (s, .data (s.readCsr r)) := by
  simp only [hostAccess, target_offset]

theorem hostAccess_write_offset {r : Csr} {s : State} (h : (s.busy && r.locked) = false) (v : Word) :
    hostAccess (.write 8 (BitVec.ofNat 18 r.offset) v) s = (s.writeCsr r v, .accepted) := by
  simp [hostAccess, target_offset, h]

theorem hostAccess_write_locked {r : Csr} {s : State} (h : (s.busy && r.locked) = true) (v : Word) :
    hostAccess (.write 8 (BitVec.ofNat 18 r.offset) v) s = (s, .busError) := by
  simp [hostAccess, target_offset, h]

theorem hostAccess_write_idle (r : Csr) {s : State} (hb : s.busy = false) (v : Word) :
    hostAccess (.write 8 (BitVec.ofNat 18 r.offset) v) s = (s.writeCsr r v, .accepted) :=
  hostAccess_write_offset (by rw [hb]; rfl) v

/-- Settles O46: the map has a register at each of its offsets, and nothing else below 0x1000. -/
theorem csrWindowAccess : Obligations.CsrWindowAccess := by
  refine ⟨fun r s => ⟨(offset_bounds r).1, hostAccess_read_offset r s, fun v hb => hostAccess_write_idle r hb v⟩, ?_⟩
  intro s w o v hlt h
  have hnone : target s w o = .none := target_none_of_window hlt h
  simp only [hostAccess, hnone, and_self]

/-- Settles O5: CMD is one of the locked registers, and a write to it issues the word. -/
theorem cmdWriteIssues : Obligations.CmdWriteIssues := by
  refine ⟨fun s w hb => hostAccess_write_idle .cmd hb w, fun s w hb => ?_, fun s => hostAccess_read_offset .cmd s, ?_⟩
  · exact hostAccess_write_locked (r := .cmd) (by rw [hb]; rfl) w
  · decide

/-! ### S registers and fields -/

theorem setIfInBounds_eq_set (v : Vector Word 8) (p : Fin 8) (x : Word) : v.setIfInBounds p.val x = v.set p.val x := by
  ext i hi
  simp [Vector.getElem_setIfInBounds, Vector.getElem_set]

theorem sreg_eq_getElem (s : State) (p : Fin 8) : s.sreg p.val = s.sregs[p] := by
  simp [State.sreg, Vector.getD]

/-- A field of a word, as a number. -/
theorem toNat_field (w : Word) (start len : Nat) : (w.extractLsb' start len).toNat = w.toNat / 2 ^ start % 2 ^ len := by
  rw [BitVec.extractLsb'_toNat, Nat.shiftRight_eq_div_pow]

theorem toNat_low_field (w : Word) (len : Nat) : (w.extractLsb' 0 len).toNat = w.toNat % 2 ^ len := by
  rw [toNat_field, pow_zero, Nat.div_one]

/-- Settles O51: each register is stored as it is written, under its mask, and its fields are the bits of R32 to R39. -/
theorem registersHoldWhatIsWritten : Obligations.RegistersHoldWhatIsWritten := by
  refine ⟨fun s v hb => ⟨hostAccess_write_idle .ctrl hb v, hostAccess_write_idle .band hb v, hostAccess_write_idle .dim hb v,
    hostAccess_write_idle .arg0 hb v, hostAccess_write_idle .arg1 hb v, fun p => ?_⟩, fun s => ?_⟩
  · rw [← setIfInBounds_eq_set]
    exact hostAccess_write_idle (.s p) hb v
  · refine ⟨hostAccess_read_offset .ctrl s, hostAccess_read_offset .band s, hostAccess_read_offset .dim s,
      hostAccess_read_offset .arg0 s, hostAccess_read_offset .arg1 s, fun p => ?_, ?_⟩
    · rw [← sreg_eq_getElem]
      exact hostAccess_read_offset (.s p) s
    · exact ⟨toNat_low_field _ _, toNat_field _ _ _, rfl, toNat_low_field _ _, toNat_field _ _ _, toNat_low_field _ _,
        toNat_field _ _ _, toNat_field _ _ _, toNat_low_field _ _, toNat_field _ _ _⟩

/-! ### STATUS -/

/-- The layout of STATUS, for any values of its parts (10_state.md R37). -/
theorem statusLayout (e : Code) (irq done busy : Bool) :
    let w := BitVec.ofNat 64 (e.value.toNat * 2 ^ 8 + irq.toNat * 2 ^ 3 + done.toNat * 2 + busy.toNat)
    w.getLsbD 0 = busy ∧ w.getLsbD 1 = done ∧ w.getLsbD 2 = false ∧ w.getLsbD 3 = irq ∧ w.extractLsb' 4 4 = 0#4 ∧
      w.extractLsb' 8 4 = e.value ∧ w.extractLsb' 12 52 = 0#52 := by
  cases e <;> revert irq done busy <;> decide

theorem writeStatus_eq (v : Word) (s : State) :
    s.writeStatus v = { s with done := if v.getLsbD 1 then false else s.done } := by
  unfold State.writeStatus
  cases v.getLsbD 1 <;> simp

theorem not_busy_and_done {s : State} (h : s.wf = true) : ¬ (s.busy = true ∧ s.done = true) := by
  rintro ⟨hb, hd⟩
  rcases controlOk_of_wf h with ⟨hidle, -⟩ | ⟨-, hdone, -⟩
  · simp [hb] at hidle
  · simp [hd] at hdone

/-- Settles O52: the layout of STATUS, its place among the registers that are never locked, and the status bits of a good state. -/
theorem statusRegister : Obligations.StatusRegister := by
  refine ⟨fun s => ⟨s.statusWord, hostAccess_read_offset .status s, statusLayout s.ecode s.irq s.done s.busy⟩, rfl,
    fun s v => ?_, fun _ _ => ⟨rfl, rfl, rfl⟩, fun _ => ⟨rfl, rfl, rfl⟩, fun _ => not_busy_and_done, by decide⟩
  rw [← writeStatus_eq]
  exact hostAccess_write_offset (r := .status) (Bool.and_false _) v

/-! ### Reset -/

theorem readCsr_resetPulse (s : State) (r : Csr) : s.resetPulse.readCsr r = State.reset.readCsr r := by cases r <;> rfl

theorem reset_sreg (p : Nat) : State.reset.sreg p = 0#64 := by
  simp only [State.sreg, State.reset, Vector.getD, Vector.toArray_replicate, Array.getD_eq_getD_getElem?,
    Array.getElem?_replicate]
  split <;> rfl

/-- Settles O55: a reset leaves the registers, the flight and the buffers of `State.reset`, whatever was in flight. -/
theorem resetValues : Obligations.ResetValues := by
  refine ⟨⟨rfl, rfl, rfl, by decide, by decide, by decide, by decide, by decide, by decide, rfl, rfl,
    fun _ => ⟨rfl, rfl⟩⟩, ?_⟩
  intro s rest hagenda
  refine ⟨({ s with agenda := rest }).resetPulse, by simp [step, hagenda], rfl, rfl, readCsr_resetPulse _, rfl, rfl, rfl, rfl,
    rfl, rfl, rfl, reset_sreg, fun _ => ⟨rfl, rfl⟩⟩

/-- Settles O56: the reset state is one closed value, idle, with PROGRESS 0. -/
theorem resetIsGood : Obligations.ResetIsGood :=
  ⟨by decide, (scanOk_idle rfl).2 (Nat.zero_le _), rfl, rfl⟩

end Sys2Proof.Proofs
end

section
/-!
PROOFS. RESULT and S: which moves, accesses and resets change them: O9.
-/
namespace Sys2Proof.Proofs

open Sys2Proof Sys2Proof.Machine

/-- RESULT and the S registers are the same. -/
def SameResults (s t : State) : Prop := t.result = s.result ∧ t.sregs = s.sregs

/-- From `s` to `t` the command in flight, no whole-image command, completed with code 0. -/
def CompletesOk (s t : State) : Prop :=
  s.busy = true ∧ s.imageCommand = false ∧ t.ecode = .ok ∧ t.busy = false ∧ t.done = true

theorem whenOk_of_ne_ok {α : Type} {c : Code} (h : c ≠ .ok) (new old : α) : whenOk c new old = old := by
  cases c with
  | ok => exact absurd rfl h
  | _ => rfl

/-- A completion writes RESULT and S only with code 0, and only a component command has something to write
(10_state.md R40, R48). -/
theorem complete_results {s : State} (phase : s.flight.phase = .complete) (hc : ControlOk s) :
    SameResults s s.complete ∨ (s.flight.code = .ok ∧ CompletesOk s s.complete) := by
  obtain ⟨hb, -, -, hf⟩ := hc.inFlight (by simp [phase])
  by_cases hcode : s.flight.code = .ok
  · cases hi : s.imageCommand with
    | true => exact .inl (by simp [SameResults, hcode, hf.imagePending hi, whenOk, setSregs])
    | false => exact .inr ⟨hcode, hb, hi, hcode, rfl, rfl⟩
  · exact .inl ⟨whenOk_of_ne_ok hcode _ _, whenOk_of_ne_ok hcode _ _⟩

/-- Of the moves only a completion with code 0 changes RESULT or S. -/
theorem CoreMove.results {s t : State} (h : CoreMove s t) (hc : ControlOk s) :
    SameResults s t ∨ (s.flight.phase = .complete ∧ s.flight.code = .ok ∧ t.flight.phase = .idle ∧ CompletesOk s t) := by
  cases h with
  | complete phase =>
    rcases complete_results phase hc with hsame | ⟨hcode, hok⟩
    · exact .inl hsame
    · exact .inr ⟨phase, hcode, rfl, hok⟩
  | _ => exact .inl ⟨rfl, rfl⟩

theorem runSteps_results (n : Nat) (s : State) (hc : ControlOk s) :
    SameResults s (runSteps (planOfWord s.cmd) n s) ∨ CompletesOk s (runSteps (planOfWord s.cmd) n s) := by
  induction n generalizing s with
  | zero => exact .inl ⟨rfl, rfl⟩
  | succ n ih =>
    by_cases phase : s.flight.phase = .idle
    · exact .inl (by rw [Laws.runSteps_idle _ _ _ phase]; exact ⟨rfl, rfl⟩)
    · have hmove := coreStep_move s
      obtain ⟨hb, -⟩ := hc.inFlight phase
      rw [Laws.runSteps_succ _ _ _ phase]
      rcases hmove.results hc with ⟨hresult, hsregs⟩ | ⟨-, -, hidle, hok⟩
      · have hrest := ih _ (hmove.controlOk hc)
        rw [hmove.cmd_eq] at hrest
        rcases hrest with ⟨hresult', hsregs'⟩ | ⟨-, hi, hend⟩
        · exact .inl ⟨hresult'.trans hresult, hsregs'.trans hsregs⟩
        · exact .inr ⟨hb, hmove.imageCommand_eq.symm.trans hi, hend⟩
      · rw [Laws.runSteps_idle _ _ _ hidle]
        exact .inr hok

theorem runCommand_results {s t : State} (hc : ControlOk s) (h : runCommand s = .next t) :
    SameResults s t ∨ CompletesOk s t := by
  rw [Laws.runCommand_eq_runPlan, runPlan] at h
  cases h
  exact runSteps_results _ s hc

/-- An accepted write of a register leaves RESULT, and of S changes the register written. -/
theorem writeCsr_results (s : State) (r : Csr) (v : Word) :
    (s.writeCsr r v).result = s.result ∧
      ((s.writeCsr r v).sregs = s.sregs ∨ ∃ p, r = .s p ∧ (s.writeCsr r v).sregs = s.sregs.set p.val v) := by
  cases r with
  | s p => exact ⟨rfl, .inr ⟨p, rfl, setIfInBounds_eq_set _ _ _⟩⟩
  | _ => exact ⟨rfl, .inl rfl⟩

theorem countDraw_results (s : State) (b : Buffer) : SameResults s (s.countDraw b) := by
  unfold State.countDraw
  split <;> exact ⟨rfl, rfl⟩

theorem writeBytes_results (s : State) (b : Buffer) (k w : Nat) (v : Word) : SameResults s (s.writeBytes b k w v) := by
  cases b <;> exact ⟨rfl, rfl⟩

/-- The write of one S register while CORE is idle. -/
def WritesSreg (s : State) (a : Access) (t : State) : Prop :=
  s.busy = false ∧ ∃ (p : Fin 8) (v : Word), a = .write 8 (BitVec.ofNat 18 (0x080 + 8 * p.val)) v ∧
    t.sregs = s.sregs.set p.val v

theorem hostAccess_results (s : State) (a : Access) :
    (hostAccess a s).1.result = s.result ∧
      ((hostAccess a s).1.sregs = s.sregs ∨ WritesSreg s a (hostAccess a s).1) := by
  rcases Laws.hostAccess_cases a s with e | ⟨w, o, r, -, -, e⟩ | ⟨w, o, b, k, -, -, e⟩ | ⟨w, o, v, r, ha, ht, hl, e⟩ |
    ⟨w, o, v, b, k, -, -, -, e⟩ <;> rw [e]
  · exact ⟨rfl, .inl rfl⟩
  · exact ⟨rfl, .inl rfl⟩
  · obtain ⟨hresult, hsregs⟩ := countDraw_results s b
    exact ⟨hresult, .inl hsregs⟩
  · obtain ⟨hresult, hsregs | ⟨p, rfl, hsregs⟩⟩ := writeCsr_results s r v
    · exact ⟨hresult, .inl hsregs⟩
    · obtain ⟨rfl, rfl⟩ := eq_of_target_csr ht
      exact ⟨hresult, .inr ⟨not_busy_of_locked hl rfl, p, v, ha, hsregs⟩⟩
  · obtain ⟨hresult, hsregs⟩ := writeBytes_results s b k w v
    exact ⟨hresult, .inl hsregs⟩

/-- Settles O9: by the event of the step. -/
theorem resultsOnlyAtCompletion : Obligations.ResultsOnlyAtCompletion := by
  refine ⟨fun s t hwf hstep hne => ?_, fun s a => ?_⟩
  · have hc := controlOk_of_wf hwf
    have hdiffer : ¬ SameResults s t := fun hsame => hne.elim (· hsame.1) (· hsame.2)
    rcases Laws.step_cases s with ⟨hagenda, e⟩ | ⟨rest, hagenda, e⟩ | ⟨rest, hagenda, e⟩ | ⟨rest, a, hagenda, e⟩ |
      ⟨rest, hagenda, e⟩ <;> rw [e] at hstep
    · rcases runCommand_results hc hstep with hsame | hok
      · exact absurd hsame hdiffer
      · exact .inr (.inl ⟨.inl hagenda, hok⟩)
    · rcases runCommand_results (s := { s with agenda := rest }) (controlOk_of_wf hwf) hstep with hsame | hok
      · exact absurd hsame hdiffer
      · exact .inr (.inl ⟨.inr ⟨rest, hagenda⟩, hok⟩)
    · cases hstep
      rcases (coreStep_move { s with agenda := rest }).results (controlOk_of_wf hwf) with hsame | ⟨phase, hcode, -, hok⟩
      · exact absurd hsame hdiffer
      · exact .inl ⟨⟨rest, hagenda⟩, phase, hcode, hok⟩
    · cases hstep
      obtain ⟨hresult, hsregs | ⟨hb, p, v, rfl, hsregs⟩⟩ := hostAccess_results { s with agenda := rest } a
      · exact absurd ⟨hresult, hsregs⟩ hdiffer
      · exact .inr (.inr (.inl ⟨p, v, rest, hagenda, hb, hresult, hsregs⟩))
    · cases hstep
      exact .inr (.inr (.inr ⟨⟨rest, hagenda⟩, rfl, reset_sreg⟩))
  · obtain ⟨hresult, hsregs⟩ := hostAccess_results s a
    exact ⟨hresult, hsregs.resolve_left⟩

end Sys2Proof.Proofs
end

section
/-!
PROOFS. The small commands: how they end, and which S registers each of them writes: O44.
-/
namespace Sys2Proof.Proofs

open Sys2Proof Sys2Proof.Machine

theorem getD_setSregs_of_not_mem {l : List (Nat × Word)} {p : Nat} (h : p ∉ l.map Prod.fst) (v : Vector Word 8) :
    (setSregs v l).getD p 0#64 = v.getD p 0#64 := by
  induction l generalizing v with
  | nil => rfl
  | cons x rest ih =>
    obtain ⟨hne, hrest⟩ := not_or.1 (mt List.mem_cons.2 h)
    rw [setSregs, ih hrest]
    simp [Vector.getD, Ne.symm hne]

/-- What a small command that has passed its checks will write at its completion. -/
def Pends (i : Instr) (s : State) (p : Pending) : Prop :=
  match (planOf i).work with
  | .nothing => p = {}
  | .component compute => compute (Laws.executing s) = .ok p
  | .image _ _ _ => False

/-- A small command ends in one of three ways: a check fails, a bounds test fails, or it writes what it pends. -/
theorem exec_small_cases {i : Instr} {s : State} (hi : i ∈ smallCommands) (hs : s.issued) :
    (∃ e, e ≠ .ok ∧ exec i s = .next (s.raise e).complete) ∨ (∃ o, exec i s = .next (s.raiseBounds o).complete) ∨
      ∃ p, Pends i s p ∧ exec i s = .next (s.finish p).complete := by
  rw [Laws.exec_eq_runPlan]
  cases hcheck : checkCode (planOf i) s with
  | some e => exact .inl ⟨e, checkCode_ne_ok hcheck, Laws.runPlan_check_error _ s e hs hcheck⟩
  | none =>
    cases hw : (planOf i).work with
    | nothing => exact .inr (.inr ⟨{}, by simp [Pends, hw], Laws.runPlan_nothing _ s hs hcheck hw⟩)
    | component compute =>
      cases hcompute : compute (Laws.executing s) with
      | ok p =>
        exact .inr (.inr ⟨p, by simp [Pends, hw, hcompute], Laws.runPlan_component_ok _ s _ p hs hcheck hw hcompute⟩)
      | error o => exact .inr (.inl ⟨o, Laws.runPlan_component_error _ s _ o hs hcheck hw hcompute⟩)
    | image =>
      exfalso
      fin_cases hi <;> cases hw

theorem numbered_fst (samples : List F64) : (numbered samples).map Prod.fst = List.range samples.length := by
  rw [numbered, List.map_map, List.range_eq_range']
  exact List.zipIdx_map_snd 0 samples

theorem pixelWork_samples {v : Variant} {m : Mode} {s : State} {p : Pending} (h : pixelWork v m s = .ok p) :
    p.samples.map Prod.fst = List.range s.cfgP := by
  unfold pixelWork at h
  rcases Laws.describe_cases v m s s.argRow s.argCol with ⟨-, vs, hvs, e⟩ | ⟨-, o, -, e⟩ | ⟨-, e⟩ <;> rw [e] at h
  · cases h
    rw [numbered_fst, Laws.sampleList_length _ _ _ _ _ _ hvs, List.length_range]
  · cases h
  · cases h

theorem sampleWork_samples {m : Mode} {s : State} {p : Pending} (h : sampleWork m s = .ok p) :
    p.samples.map Prod.fst = [s.argSidx] := by
  unfold sampleWork at h
  split at h <;> cases h
  rfl

/-- NOP, ENCODE, BANDCMP, RIMIN and UCLASS write no S register. -/
theorem Pends.no_samples {i : Instr} {s : State} {p : Pending} (h : Pends i s p)
    (hi : i ∈ [Instr.nop, .encodeTM, .encodeBM, .encodeTL, .encodeBL, .bandcmp, .rimin, .uclass]) : p.samples = [] := by
  fin_cases hi <;> cases h <;> rfl

/-- SAMPLE writes S[SIDX] (41_sampler.md R169). -/
theorem Pends.sample {i : Instr} {s : State} {p : Pending} (h : Pends i s p)
    (hi : i ∈ [Instr.sampleN, .sampleB, .sampleT]) : p.samples.map Prod.fst = [s.argSidx] := by
  fin_cases hi <;> exact sampleWork_samples (s := Laws.executing s) h

/-- PIXEL writes S[0..P−1] (43_pipeline.md R241). -/
theorem Pends.pixel {i : Instr} {s : State} {p : Pending} (h : Pends i s p)
    (hi : i ∈ [Instr.pixelLbpN, .pixelLbpB, .pixelRilbp, .pixelUlbp, .pixelAlbpN, .pixelAlbpB]) :
    p.samples.map Prod.fst = List.range s.cfgP := by
  fin_cases hi <;> exact pixelWork_samples (s := Laws.executing s) h

theorem sreg_congr {s t : State} (h : t.sregs = s.sregs) (p : Nat) : t.sreg p = s.sreg p := by simp only [State.sreg, h]

/-- A completion leaves every S register alone that what is pending does not name. -/
theorem sreg_finish_complete {s : State} {p : Pending} {q : Nat} (h : q ∉ p.samples.map Prod.fst) :
    (s.finish p).complete.sreg q = s.sreg q :=
  getD_setSregs_of_not_mem h s.sregs

/-- Settles O44: by the way the command ends, and by the S registers it pends. -/
theorem smallCommandsFrame : Obligations.SmallCommandsFrame := by
  intro i s hi hs
  rcases exec_small_cases hi hs with ⟨e, he, h⟩ | ⟨o, h⟩ | ⟨p, hp, h⟩
  · have hresult : (s.raise e).complete.result = s.result := whenOk_of_ne_ok he _ _
    have hsregs : (s.raise e).complete.sregs = s.sregs := whenOk_of_ne_ok he _ _
    exact ⟨_, h, rfl, fun _ => ⟨hresult, hsregs⟩, fun _ => rfl, fun _ => hsregs, fun _ p _ => sreg_congr hsregs p,
      fun p _ _ => sreg_congr hsregs p, fun _ => ⟨rfl, rfl⟩⟩
  · exact ⟨_, h, rfl, fun _ => ⟨rfl, rfl⟩, fun hbounds => absurd rfl hbounds, fun _ => rfl, fun _ _ _ => rfl,
      fun _ _ _ => rfl, fun _ => ⟨rfl, rfl⟩⟩
  · refine ⟨_, h, rfl, fun hok => absurd rfl hok, fun _ => rfl, fun hnone => ?_, fun hsample q hq => ?_,
      fun q hq hpixel => ?_, fun _ => ⟨rfl, rfl⟩⟩
    · show setSregs s.sregs p.samples = s.sregs
      rw [hp.no_samples hnone, setSregs]
    · exact sreg_finish_complete (by rw [hp.sample hsample]; simpa using hq)
    · exact sreg_finish_complete (by rw [hp.pixel hpixel]; simpa using hq)

end Sys2Proof.Proofs
end

section
/-!
PROOFS. The buffers on the bus: which accesses of a window reach bytes, which bytes they read or write, and what a host access can
change: O47, O48, O49, O50.
-/
namespace Sys2Proof.Proofs

open Sys2Proof Sys2Proof.Machine

/-! ### Which accesses reach bytes -/

theorem windowOk_iff (s : State) (w k : Nat) :
    windowOk s w k = true ↔ w ∈ [1, 2, 4, 8] ∧ k % w = 0 ∧ k + w ≤ s.maxPix := by
  simp [windowOk, widthOk, and_assoc, or_assoc]

theorem toNat_window (b : Buffer) {k : Nat} (hk : k < 0x10000) : (BitVec.ofNat 18 (b.window + k)).toNat = b.window + k := by
  rw [BitVec.toNat_ofNat]
  cases b <;> simp only [Buffer.window] <;> omega

/-- In the 64 KiB of a window an access reaches the bytes at its window offset, if the window accepts it. -/
theorem target_window (s : State) (b : Buffer) (w : Nat) {k : Nat} (hk : k < 0x10000) :
    target s w (BitVec.ofNat 18 (b.window + k)) = if windowOk s w k then .bytes b k else .none := by
  have ha := toNat_window b hk
  cases b <;> simp only [Buffer.window] at ha ⊢ <;> simp only [target, ha]
  · rw [if_neg (by omega), if_neg (by omega), if_pos (by omega), show 0x10000 + k - 0x10000 = k by omega]
  · rw [if_neg (by omega), if_neg (by omega), if_neg (by omega), if_pos (by omega), show 0x20000 + k - 0x20000 = k by omega]

/-- Between the registers and the windows, and above the windows, there is nothing (20_memory.md R81). -/
theorem target_reserved (s : State) (w : Nat) {o : Offset}
    (h : (0x01000 ≤ o.toNat ∧ o.toNat ≤ 0x0FFFF) ∨ 0x30000 ≤ o.toNat) : target s w o = .none := by
  simp only [target]
  rw [if_neg (by omega)]
  rcases h with h | h
  · rw [if_pos (by omega)]
  · rw [if_neg (by omega), if_neg (by omega), if_neg (by omega)]

theorem hostAccess_of_target_none {s : State} {w : Nat} {o : Offset} (h : target s w o = .none) (v : Word) :
    hostAccess (.read w o) s = (s, .busError) ∧ hostAccess (.write w o v) s = (s, .busError) := by
  simp only [hostAccess, h, and_self]

theorem hostAccess_read_window {s : State} {w k : Nat} (hk : k < 0x10000) (h : windowOk s w k = true) (b : Buffer) :
    hostAccess (.read w (BitVec.ofNat 18 (b.window + k))) s = (s.countDraw b, .data (s.readBytes b k w)) := by
  simp only [hostAccess, target_window s b w hk, if_pos h]

theorem hostAccess_write_window {s : State} {w k : Nat} (hk : k < 0x10000) (h : windowOk s w k = true) (b : Buffer)
    (hb : s.busy = false) (v : Word) :
    hostAccess (.write w (BitVec.ofNat 18 (b.window + k)) v) s = (s.writeBytes b k w v, .accepted) := by
  simp [hostAccess, target_window s b w hk, h, hb]

/-- Settles O47: outside what `windowOk` accepts, and in the reserved ranges, an access reaches nothing. -/
theorem refusedAccesses : Obligations.RefusedAccesses := by
  refine ⟨fun s b w k v hk h => hostAccess_of_target_none ?_ v, fun s w o v h =>
    hostAccess_of_target_none (target_reserved s w h) v⟩
  have hrefused : ¬ windowOk s w k = true := by
    rw [windowOk_iff]
    rintro ⟨hwidth, haligned, hfits⟩
    rcases h with h | h | h
    · exact h hwidth
    · exact h haligned
    · omega
  rw [target_window s b w hk, if_neg hrefused]

/-! ### Little-endian bytes -/

/-- The byte of a word from bit `n` on is the low byte of the word shifted down by `n`. -/
theorem extractLsb'_byte_shift (v : Word) (n : Nat) : (v >>> n).extractLsb' 0 8 = v.extractLsb' n 8 := by
  ext j hj
  simp [BitVec.getElem_extractLsb']

/-- A buffer after a write of `n` bytes, at every offset. -/
theorem written_setBytes (m : Memory) (k n : Nat) (v : Word) (a : Nat) :
    (Memory.setBytes m k n v).written a =
      if k ≤ a ∧ a < k + n then some (v.extractLsb' (8 * (a - k)) 8) else m.written a := by
  split
  · next h =>
    rw [show a = k + (a - k) by omega, Laws.written_setBytes_inside _ _ _ _ _ (by omega), extractLsb'_byte_shift,
      Nat.add_sub_cancel_left]
  · exact Laws.written_setBytes_outside _ _ _ _ _ (by omega)

theorem byteOf_writeBytes (s : State) (b : Buffer) (k n : Nat) (v : Word) (b' : Buffer) (a : Nat) :
    (s.writeBytes b k n v).byteOf b' a =
      if b' = b ∧ k ≤ a ∧ a < k + n then v.extractLsb' (8 * (a - k)) 8 else s.byteOf b' a := by
  by_cases hbuffer : b' = b
  · subst hbuffer
    by_cases h : k ≤ a ∧ a < k + n <;>
      cases b' <;> simp [State.byteOf, State.writeBytes, State.imgByte, State.descByte, written_setBytes, h]
  · rw [if_neg (fun h => hbuffer h.1)]
    match b, b', hbuffer with
    | .img, .desc, _ => rfl
    | .desc, .img, _ => rfl

/-- A gathered value takes no more bits than its bytes have. -/
theorem toNat_gather_lt (f : Nat → Byte) (a n : Nat) : (gather f a n).toNat < 2 ^ (8 * n) := by
  induction n generalizing a with
  | zero => simp [gather]
  | succ n ih =>
    have hhead : (f a).toNat < 2 ^ (8 * (n + 1)) :=
      (f a).isLt.trans_le (Nat.pow_le_pow_right two_pos (by omega))
    have hrest : (gather f (a + 1) n).toNat * 2 ^ 8 < 2 ^ (8 * (n + 1)) := by
      rw [Nat.mul_succ, pow_add]
      exact Nat.mul_lt_mul_of_pos_right (ih (a + 1)) (by positivity)
    rw [gather, BitVec.toNat_or, BitVec.toNat_shiftLeft, Nat.shiftLeft_eq, BitVec.toNat_setWidth]
    exact Nat.or_lt_two_pow ((Nat.mod_le _ _).trans_lt hhead) ((Nat.mod_le _ _).trans_lt hrest)

/-- Byte `i` of a gathered value is the byte at the `i`-th offset. -/
theorem extractLsb'_gather (f : Nat → Byte) {n : Nat} (hn : n ≤ 8) (a : Nat) {i : Nat} (hi : i < n) :
    (gather f a n).extractLsb' (8 * i) 8 = f (a + i) := by
  induction n generalizing a i with
  | zero => omega
  | succ n ih =>
    cases i with
    | zero =>
      ext j hj
      simp [gather, BitVec.getElem_extractLsb', hj, show j < 64 by omega]
    | succ i =>
      rw [show a + (i + 1) = a + 1 + i by omega, ← ih (by omega) (a + 1) (by omega)]
      ext j hj
      have hbeyond : (f a).getLsbD (8 * (i + 1) + j) = false := BitVec.getLsbD_of_ge _ _ (by omega)
      simp [gather, BitVec.getElem_extractLsb', hbeyond, show 8 * (i + 1) + j < 64 by omega,
        show ¬ 8 * (i + 1) + j < 8 by omega, show 8 * (i + 1) + j - 8 = 8 * i + j by omega,
        BitVec.getLsbD_eq_getElem (show 8 * i + j < 64 by omega)]

/-! ### Reads and writes of bytes -/

theorem countDraw_eq (s : State) (b : Buffer) : s.countDraw b = { s with draws := (s.countDraw b).draws } := by
  unfold State.countDraw
  split <;> rfl

theorem countDraw_of_stored {s : State} {b : Buffer} (h : b = .img ∨ s.busy = false) : s.countDraw b = s := by
  rcases h with rfl | h
  · simp [State.countDraw]
  · simp [State.countDraw, h]

theorem readBytes_of_stored {s : State} {b : Buffer} (h : b = .img ∨ s.busy = false) (k n : Nat) :
    s.readBytes b k n = gather (s.byteOf b) k n := by
  cases b with
  | img => rfl
  | desc =>
    have hb : s.busy = false := h.resolve_left (by decide)
    simp only [State.readBytes, hb, Bool.false_eq_true, if_false]
    rfl

theorem readBytes_of_busy {s : State} (h : s.busy = true) (k n : Nat) :
    s.readBytes .desc k n = gather (Config.freeBusyByte s.draws) k n := by
  rw [State.readBytes, if_pos h]

theorem toNat_readBytes_lt (s : State) (b : Buffer) (k n : Nat) : (s.readBytes b k n).toNat < 2 ^ (8 * n) := by
  unfold State.readBytes
  split
  · exact toNat_gather_lt _ _ _
  · split <;> exact toNat_gather_lt _ _ _

theorem writeBytes_eq (s : State) (b : Buffer) (k n : Nat) (v : Word) :
    s.writeBytes b k n v = { s with img := (s.writeBytes b k n v).img, desc := (s.writeBytes b k n v).desc } := by
  cases b <;> rfl

/-- Settles O48: the window accepts the access, a write sets the bytes of the value and a read gathers them. -/
theorem windowsAreLittleEndian : Obligations.WindowsAreLittleEndian := by
  intro s b n k hmax hn haligned hfits
  have hn_bounds : 1 ≤ n ∧ n ≤ 8 := by fin_cases hn <;> decide
  have hk : k < 0x10000 := by omega
  have hok : windowOk s n k = true := (windowOk_iff s n k).2 ⟨hn, haligned, hfits⟩
  refine ⟨fun v hb => ⟨_, hostAccess_write_window hk hok b hb v, writeBytes_eq s b k n v, byteOf_writeBytes s b k n v⟩,
    _, _, hostAccess_read_window hk hok b, toNat_readBytes_lt s b k n, countDraw_eq s b, fun hstored => ?_, ?_⟩
  · refine ⟨countDraw_of_stored hstored, fun i hi => ?_⟩
    rw [readBytes_of_stored hstored, extractLsb'_gather _ hn_bounds.2 _ hi]
  · rintro ⟨rfl, hb⟩ i hi
    rw [readBytes_of_busy hb, extractLsb'_gather _ hn_bounds.2 _ hi]

/-! ### Writes while BUSY = 1, and what an access can change -/

/-- Between the registers and the end of the windows no write is accepted while BUSY = 1, whether it reaches bytes or nothing. -/
theorem hostAccess_write_busy_of_window {s : State} (hb : s.busy = true) {o : Offset} (ho : 0x1000 ≤ o.toNat) (w : Nat)
    (v : Word) : hostAccess (.write w o v) s = (s, .busError) := by
  cases ht : target s w o with
  | none => exact (hostAccess_of_target_none ht v).2
  | bytes b k => simp [hostAccess, ht, hb]
  | csr r =>
    have hoffset := congrArg BitVec.toNat (eq_of_target_csr ht).2
    have hbounds := (offset_bounds r).2
    rw [toNat_offset] at hoffset
    omega

theorem hostAccess_write_readOnly {r : Csr} (hr : r ∈ [Csr.id, .result, .progress, .errinfo]) (s : State) (v : Word) :
    hostAccess (.write 8 (BitVec.ofNat 18 r.offset) v) s = (s, .accepted) := by
  fin_cases hr <;> exact hostAccess_write_offset (Bool.and_false _) v

/-- Settles O49: the registers named are locked, and a window write needs BUSY = 0. -/
theorem busyRefusesWrites : Obligations.BusyRefusesWrites := by
  have hlocked : ∀ r ∈ [Csr.ctrl, .band, .dim, .cmd, .arg0, .arg1], r.locked = true := by decide
  obtain ⟨-, -, hstatus, -⟩ := statusRegister
  refine ⟨fun s v hb => ⟨fun r hr => ?_, fun p => ?_, fun w o hlow _ => ?_⟩, fun s v => ⟨hstatus s v, fun r hr => ?_⟩⟩
  · exact hostAccess_write_locked (by rw [hb, hlocked r hr]; rfl) v
  · exact hostAccess_write_locked (r := .s p) (by rw [hb]; rfl) v
  · exact hostAccess_write_busy_of_window hb (by omega) w v
  · exact hostAccess_write_readOnly hr s v

theorem hostAccess_read_eq (s : State) (w : Nat) (o : Offset) :
    (hostAccess (.read w o) s).1 = { s with draws := (hostAccess (.read w o) s).1.draws } := by
  cases ht : target s w o with
  | none | csr => simp only [hostAccess, ht]
  | bytes b k =>
    simp only [hostAccess, ht]
    exact countDraw_eq s b

/-- The state of a command as 20_memory.md R89 names it: its status bits, its two records, and its flight. -/
def commandState (s : State) : Bool × Bool × Code × Word × Word × Flight :=
  (s.busy, s.done, s.ecode, s.progress, s.errinfo, s.flight)

theorem commandState_writeBytes (s : State) (b : Buffer) (k n : Nat) (v : Word) :
    commandState (s.writeBytes b k n v) = commandState s := by
  cases b <;> rfl

/-- Of the register writes only one to CMD, and one to STATUS that clears DONE, change the state of the command. -/
theorem commandState_writeCsr {s : State} {r : Csr} {v : Word} (h : commandState (s.writeCsr r v) ≠ commandState s) :
    r = .cmd ∨ (r = .status ∧ v.getLsbD 1 = true) := by
  cases r with
  | cmd => exact .inl rfl
  | status =>
    refine .inr ⟨rfl, ?_⟩
    by_contra hv
    refine h ?_
    show commandState (s.writeStatus v) = commandState s
    rw [writeStatus_eq, if_neg hv]
  | _ => exact absurd rfl h

/-- Settles O50: by what the access reaches. -/
theorem readsHaveNoSideEffect : Obligations.ReadsHaveNoSideEffect := by
  refine ⟨hostAccess_read_eq, fun s v r hr => hostAccess_write_readOnly hr s v, ?_⟩
  intro s t reply w o v hwrite (hchange : commandState t ≠ commandState s)
  rcases Laws.hostAccess_cases (.write w o v) s with e | ⟨_, _, _, ha, -⟩ | ⟨_, _, _, _, ha, -⟩ |
    ⟨w, o, v, r, ha, ht, hl, e⟩ | ⟨w, o, v, b, k, ha, -, -, e⟩
  · cases hwrite.symm.trans e
    exact absurd rfl hchange
  · cases ha
  · cases ha
  · cases ha
    cases hwrite.symm.trans e
    obtain ⟨hw, ho⟩ := eq_of_target_csr ht
    rcases commandState_writeCsr hchange with rfl | ⟨rfl, hv⟩
    · exact .inl ⟨hw, ho, not_busy_of_locked hl rfl, rfl⟩
    · exact .inr ⟨hw, ho, hv, by simp [State.writeCsr, writeStatus_eq, hv]⟩
  · cases ha
    cases hwrite.symm.trans e
    exact absurd (commandState_writeBytes s b k _ _) hchange

end Sys2Proof.Proofs
end

section
/-!
PROOFS. What the pipeline writes, and the order of the two RILBP passes: O45, O59.
-/
namespace Sys2Proof.Proofs

open Sys2Proof Sys2Proof.Machine

/-! ### The frame of the pipeline -/

/-- From `s` to `t` nothing is written but status, flight, results and records, and DESC below H·W (20_memory.md R90, R91). -/
def PipelineFrame (s t : State) : Prop :=
  t = { s with busy := t.busy, done := t.done, ecode := t.ecode, result := t.result, progress := t.progress,
               errinfo := t.errinfo, sregs := t.sregs, desc := t.desc, flight := t.flight } ∧
    ∀ a, s.height * s.width ≤ a → t.descByte a = s.descByte a

theorem PipelineFrame.refl (s : State) : PipelineFrame s s := ⟨rfl, fun _ _ => rfl⟩

theorem PipelineFrame.trans {s t u : State} (h : PipelineFrame s t) (h' : PipelineFrame t u) : PipelineFrame s u := by
  obtain ⟨ht, hdesc⟩ := h
  obtain ⟨hu, hdesc'⟩ := h'
  have hsize : t.height * t.width = s.height * s.width := by rw [ht]; rfl
  exact ⟨hu.trans (by rw [ht]), fun a ha => (hdesc' a (hsize ▸ ha)).trans (hdesc a ha)⟩

/-- Every move keeps the frame: the zero-fill ends at H·W, and an interior cell lies below it. -/
theorem CoreMove.frame {s t : State} (h : CoreMove s t) : PipelineFrame s t := by
  cases h with
  | fill phase image =>
    refine ⟨rfl, fun a ha => ?_⟩
    show s.zeroFillDesc.descByte a = s.descByte a
    rw [Laws.zeroFillDesc_descByte, if_neg (by omega)]
  | pixel phase image interior v =>
    refine ⟨rfl, fun a ha => ?_⟩
    have hcell := cellOffset_lt interior
    exact Laws.setDescAt_descByte_other s _ _ a v (by omega)
  | _ => exact ⟨rfl, fun _ _ => rfl⟩

theorem runCommand_frame {s t : State} (h : runCommand s = .next t) : PipelineFrame s t := by
  rw [Laws.runCommand_eq_runPlan, runPlan] at h
  cases h
  exact runSteps_keeps (inv := PipelineFrame s) (fun _ _ hm h => h.trans hm.frame) _ s (.refl s)

/-- Settles O45: a core step is one move, and a run is a chain of them. -/
theorem pipelineNeverWritesInputs : Obligations.PipelineNeverWritesInputs := by
  intro s t hstep honly
  have hframe : PipelineFrame { s with agenda := s.agenda.tail } t := by
    rcases Laws.step_cases s with ⟨hagenda, e⟩ | ⟨rest, hagenda, e⟩ | ⟨rest, hagenda, e⟩ | ⟨rest, a, hagenda, -⟩ |
      ⟨rest, hagenda, -⟩
    · have hs : { s with agenda := s.agenda.tail } = s := by rw [hagenda, List.tail_nil, ← hagenda]
      rw [hs]
      exact runCommand_frame (e.symm.trans hstep)
    · rw [hagenda]
      exact runCommand_frame (e.symm.trans hstep)
    · rw [hagenda]
      cases e.symm.trans hstep
      exact (coreStep_move { s with agenda := rest }).frame
    · simpa using honly _ _ hagenda
    · simpa using honly _ _ hagenda
  exact hframe

/-! ### The second pass -/

theorem eq_rilbp_of_second {i : Instr} {z : Bool} {f g : Pass} (h : (planOf i).work = .image z f (some g)) : i = .rilbp := by
  cases i
  case rilbp => rfl
  all_goals cases h

/-- RILBP is the command with a second pass (43_pipeline.md R238). -/
theorem decode_of_twoPasses {s : State} (h : s.twoPasses = true) : decode s.cmd = .ok .rilbp := by
  unfold State.twoPasses planOfWord at h
  cases hd : decode s.cmd with
  | error e => simp [hd, illegalPlan] at h
  | ok i =>
    simp only [hd] at h
    split at h
    · next hw => rw [eq_rilbp_of_second hw]
    · cases h

theorem planOfWord_of_decode {w : Word} {i : Instr} (h : decode w = .ok i) : planOfWord w = planOf i := by
  simp only [planOfWord, h]

/-- A move into the second pass is its start, once the cursor has left the interior. -/
theorem CoreMove.second_of_phase {s t : State} (h : CoreMove s t) (before : s.flight.phase ≠ .pass2)
    (after : t.flight.phase = .pass2) :
    s.flight.phase = .pass1 ∧ s.twoPasses = true ∧ s.inInterior s.flight.row s.flight.col = false ∧ t = s.startSecond := by
  cases h with
  | second phase two done => exact ⟨phase, two, done, rfl⟩
  | idle => exact absurd after before
  | pixel => exact absurd after before
  | scan phase image fits first isFirst => rcases isFirst with rfl | rfl <;> cases after
  | _ => cases after

/-- At the end of the first pass PROGRESS is the number of interior pixels (43_pipeline.md R242). -/
theorem progress_of_firstPassDone {s : State} (hscan : s.scanOk = true) (image : s.imageCommand = true)
    (phase : s.flight.phase = .pass1) (done : s.inInterior s.flight.row s.flight.col = false) :
    s.progress = BitVec.ofNat 64 s.interiorCount := by
  obtain ⟨-, hcounted⟩ := (scanOk_image image).1 hscan
  simp only [Counted, phase] at hcounted
  obtain ⟨hplace, hprogress⟩ := hcounted
  rw [← placeIndex_of_done hplace done, ← hprogress, BitVec.ofNat_toNat, BitVec.setWidth_eq]

/-- A pixel step of the second pass replaces the cell at the cursor by its least rotation. -/
theorem coreStep_rilbp_second {s : State} (phase : s.flight.phase = .pass2)
    (interior : s.inInterior s.flight.row s.flight.col = true) :
    coreStep planRilbp s =
      (s.setDescAt s.flight.row s.flight.col (rimin8 (s.descAt s.flight.row s.flight.col) s.cfgP)).advance := by
  simp [coreStep, phase, planRilbp, secondPassStep, interior, pixelStep, rotatePass]

/-- Settles O59: the start of the second pass is the only move into it, and its pixel steps rotate one cell. -/
theorem secondPassAfterFirst : Obligations.SecondPassAfterFirst := by
  intro s t rest hwf hscan hagenda hstep
  obtain rfl : coreStep (planOfWord s.cmd) { s with agenda := rest } = t := by simpa [step, hagenda] using hstep
  refine ⟨fun before after => ?_, fun phase interior => ?_⟩
  · obtain ⟨phase, two, done, e⟩ := (coreStep_move { s with agenda := rest }).second_of_phase before after
    rw [e]
    exact ⟨decode_of_twoPasses two, progress_of_firstPassDone (s := s) hscan (imageCommand_of_twoPasses two) phase done, rfl⟩
  · obtain ⟨-, -, -, hflight⟩ := (controlOk_of_wf hwf).inFlight (by simp [phase])
    have hplan : planOfWord s.cmd = planRilbp := planOfWord_of_decode (decode_of_twoPasses (hflight.second phase).2)
    rw [hplan, coreStep_rilbp_second (s := { s with agenda := rest }) phase interior]
    exact ⟨Laws.setDescAt_descByte_same s _ _ _, fun a ha => Laws.setDescAt_descByte_other s _ _ a _ ha⟩

end Sys2Proof.Proofs
end

section
/-!
PROOFS. The decoder and the encoder: the fields of a word, the well-formed fields, the 24 words of the table, the words that are no
command, and the words of the pseudo-instructions: O1, O2, O3, O54.
-/
namespace Sys2Proof.Proofs

open Sys2Proof Sys2Proof.Machine

/-! ### The value of each field -/

theorem opcOf_eq_some_iff (n : Nat) (o : Opc) : opcOf n = some o ↔ n = opcValue o := by
  constructor
  · intro h
    unfold opcOf at h
    split at h <;> cases h <;> rfl
  · rintro rfl
    cases o <;> rfl

theorem smodeOf_eq_some_iff (n : Nat) (m : Mode) : smodeOf n = some m ↔ n = smodeValue m := by
  constructor
  · intro h
    unfold smodeOf at h
    split at h <;> cases h <;> rfl
  · rintro rfl
    cases m <;> rfl

theorem ruleOf_ruleValue (r : Rule) : ruleOf (ruleValue r) = r := by cases r <;> rfl

theorem orderOf_orderValue (o : Order) : orderOf (orderValue o) = o := by cases o <;> rfl

theorem varOf_varValue (v : Variant) : varOf (varValue v) = v := by cases v <;> rfl

theorem ruleValue_ruleOf {n : Nat} (h : n < 2) : ruleValue (ruleOf n) = n := by interval_cases n <;> rfl

theorem orderValue_orderOf {n : Nat} (h : n < 2) : orderValue (orderOf n) = n := by interval_cases n <;> rfl

theorem varValue_varOf {n : Nat} (h : n < 4) : varValue (varOf n) = n := by interval_cases n <;> rfl

/-- Each field's value fits the width of its place. -/
theorem fieldValues_lt (f : Fields) :
    opcValue f.opc < 2 ^ 8 ∧ smodeValue f.smode < 2 ^ 2 ∧ ruleValue f.rule < 2 ^ 1 ∧ orderValue f.order < 2 ^ 1 ∧
      varValue f.var < 2 ^ 2 :=
  ⟨by cases f.opc <;> decide, by cases f.smode <;> decide, by cases f.rule <;> decide, by cases f.order <;> decide,
    by cases f.var <;> decide⟩

/-! ### The word of some fields -/

/-- The word holds these fields at their places, and zeros in [63:14] (30_encoding.md R121, R127). -/
structure HasFields (w : Word) (f : Fields) : Prop where
  opc : fieldOpc w = opcValue f.opc
  smode : fieldSmode w = smodeValue f.smode
  rule : fieldRule w = ruleValue f.rule
  order : fieldOrder w = orderValue f.order
  var : fieldVar w = varValue f.var
  rsv : fieldRsv w = 0

theorem toNat_encodeFields (f : Fields) : (encodeFields f).toNat =
    opcValue f.opc + smodeValue f.smode * 2 ^ 8 + ruleValue f.rule * 2 ^ 10 + orderValue f.order * 2 ^ 11
      + varValue f.var * 2 ^ 12 := by
  obtain ⟨hopc, hsmode, hrule, horder, hvar⟩ := fieldValues_lt f
  exact Nat.mod_eq_of_lt (by omega)

theorem hasFields_encodeFields (f : Fields) : HasFields (encodeFields f) f := by
  obtain ⟨hopc, hsmode, hrule, horder, hvar⟩ := fieldValues_lt f
  constructor <;>
    simp only [fieldOpc, fieldSmode, fieldRule, fieldOrder, fieldVar, fieldRsv, toNat_field, toNat_encodeFields] <;> omega

/-- The six fields are all of the word. -/
theorem HasFields.eq_encodeFields {w : Word} {f : Fields} (h : HasFields w f) : w = encodeFields f := by
  obtain ⟨hopc, hsmode, hrule, horder, hvar, hrsv⟩ := h
  simp only [fieldOpc, fieldSmode, fieldRule, fieldOrder, fieldVar, fieldRsv, toNat_field] at *
  refine BitVec.eq_of_toNat_eq ?_
  rw [toNat_encodeFields]
  have hw := w.isLt
  omega

/-! ### The fields an operation takes -/

/-- SMODE as R128 and R132 allow it, operation by operation. -/
theorem smodeOk_iff (f : Fields) : f.smodeOk = true ↔
    f.smode = .nearest ∨ f.opc = .sample ∨
      f.smode = .bilinear ∧ (f.opc = .lbp ∨ f.opc = .albp ∨ f.opc = .pixel ∧ (f.var = .lbp ∨ f.var = .albp)) := by
  obtain ⟨opc, smode, rule, order, var⟩ := f
  cases smode <;> cases opc <;> simp [Fields.smodeOk]

theorem fields_wf_iff (f : Fields) : f.wf = true ↔
    f.smodeOk = true ∧ (f.rule = .threshold ∨ f.opc = .encode) ∧ (f.order = .msbFirst ∨ f.opc = .encode) ∧
      (f.var = .lbp ∨ f.opc = .pixel) := by
  simp [Fields.wf, Fields.ruleOk, Fields.orderOk, Fields.varOk, and_assoc]

theorem fields_wf (i : Instr) : i.fields.wf = true := by cases i <;> rfl

theorem instrOf_fields (i : Instr) : instrOf i.fields = i := by cases i <;> rfl

/-- Well-formed fields are those of their command: `instrOf` drops none of them. -/
theorem fields_instrOf {f : Fields} (h : f.wf = true) : (instrOf f).fields = f := by
  rw [fields_wf_iff, smodeOk_iff] at h
  obtain ⟨opc, smode, rule, order, var⟩ := f
  cases opc with
  | lbp | albp =>
    obtain ⟨hsmode, rfl, rfl, rfl⟩ : (smode = .nearest ∨ smode = .bilinear) ∧ rule = .threshold ∧ order = .msbFirst ∧
      var = .lbp := by simpa using h
    rcases hsmode with rfl | rfl <;> rfl
  | sample =>
    obtain ⟨rfl, rfl, rfl⟩ : rule = .threshold ∧ order = .msbFirst ∧ var = .lbp := by simpa using h
    cases smode <;> rfl
  | encode =>
    obtain ⟨rfl, rfl⟩ : smode = .nearest ∧ var = .lbp := by simpa using h
    cases rule <;> cases order <;> rfl
  | pixel =>
    obtain ⟨hsmode, rfl, rfl⟩ : (smode = .nearest ∨ smode = .bilinear ∧ (var = .lbp ∨ var = .albp)) ∧
      rule = .threshold ∧ order = .msbFirst := by simpa using h
    rcases hsmode with rfl | ⟨rfl, rfl | rfl⟩
    · cases var <;> rfl
    · rfl
    · rfl
  | _ =>
    obtain ⟨rfl, rfl, rfl, rfl⟩ : smode = .nearest ∧ rule = .threshold ∧ order = .msbFirst ∧ var = .lbp := by
      simpa using h
    rfl

/-! ### The decoder -/

theorem decode_reservedBits {w : Word} (h : fieldRsv w ≠ 0) : decode w = .error .reservedBits := by
  simp [decode, h]

theorem decode_unknownOpc {w : Word} (hrsv : fieldRsv w = 0) (hopc : opcOf (fieldOpc w) = none) :
    decode w = .error .unknownOpc := by
  simp [decode, hrsv, hopc]

theorem decode_reservedSmode {w : Word} {o : Opc} (hrsv : fieldRsv w = 0) (hopc : opcOf (fieldOpc w) = some o)
    (hsmode : smodeOf (fieldSmode w) = none) : decode w = .error .reservedSmode := by
  simp [decode, hrsv, hopc, hsmode]

/-- A word with fields decodes to their command, provided that the operation takes them. -/
theorem HasFields.decode_eq {w : Word} {f : Fields} (h : HasFields w f) :
    decode w = if f.wf then .ok (instrOf f) else .error .fieldNotTaken := by
  have hopc : opcOf (fieldOpc w) = some f.opc := (opcOf_eq_some_iff _ _).2 h.opc
  have hsmode : smodeOf (fieldSmode w) = some f.smode := (smodeOf_eq_some_iff _ _).2 h.smode
  simp only [decode, h.rsv, hopc, hsmode, h.rule, h.order, h.var, ruleOf_ruleValue, orderOf_orderValue, varOf_varValue]
  rfl

/-- A word that decodes has fields: one without is refused for [63:14], OPC or SMODE. -/
theorem hasFields_of_decode {w : Word} {i : Instr} (h : decode w = .ok i) : ∃ f, HasFields w f := by
  have hrsv : fieldRsv w = 0 := by
    by_contra hne
    simp [decode_reservedBits hne] at h
  cases hopc : opcOf (fieldOpc w) with
  | none => simp [decode_unknownOpc hrsv hopc] at h
  | some o =>
    cases hsmode : smodeOf (fieldSmode w) with
    | none => simp [decode_reservedSmode hrsv hopc hsmode] at h
    | some m =>
      exact ⟨⟨o, m, ruleOf (fieldRule w), orderOf (fieldOrder w), varOf (fieldVar w)⟩,
        (opcOf_eq_some_iff _ _).1 hopc, (smodeOf_eq_some_iff _ _).1 hsmode,
        (ruleValue_ruleOf (BitVec.isLt _)).symm, (orderValue_orderOf (BitVec.isLt _)).symm,
        (varValue_varOf (BitVec.isLt _)).symm, hrsv⟩

theorem decode_encode (i : Instr) : decode (encode i) = .ok i := by
  rw [encode, (hasFields_encodeFields i.fields).decode_eq, if_pos (fields_wf i), instrOf_fields]

/-- The decoder accepts no word but the encoder's. -/
theorem eq_encode_of_decode {w : Word} {i : Instr} (h : decode w = .ok i) : w = encode i := by
  obtain ⟨f, hf⟩ := hasFields_of_decode h
  rw [hf.decode_eq] at h
  split at h
  · next hwf =>
    cases h
    rw [encode, fields_instrOf hwf, ← hf.eq_encodeFields]
  · cases h

theorem decode_eq_ok_iff (w : Word) (i : Instr) : decode w = .ok i ↔ w = encode i :=
  ⟨eq_encode_of_decode, by rintro rfl; exact decode_encode i⟩

/-- Settles O1: the fields of every command are well formed, and the decoder reads them back. -/
theorem encodeDecodeRoundTrip : Obligations.EncodeDecodeRoundTrip := fun i => ⟨fields_wf i, decode_encode i⟩

/-! ### The table -/

/-- The table of R128 has one row for each command, with the word of its encoding. -/
theorem mem_opcodeRows_iff (i : Instr) (w : Word) : (i, w) ∈ opcodeRows ↔ w = encode i := by
  have hwords : ∀ row ∈ opcodeRows, row.2 = encode row.1 := by decide
  constructor
  · exact hwords (i, w)
  · rintro rfl
    cases i <;> decide

theorem decode_eq_ok_iff_mem (w : Word) (i : Instr) : decode w = .ok i ↔ (i, w) ∈ opcodeRows := by
  rw [decode_eq_ok_iff, mem_opcodeRows_iff]

theorem planOfWord_eq_illegalPlan {w : Word} (h : ∀ i, decode w ≠ .ok i) : planOfWord w = illegalPlan := by
  unfold planOfWord
  split
  · next i hi => exact absurd hi (h i)
  · rfl

/-- A word that is no command fails the first check (60_exceptions.md R327, R328), and its completion writes ECODE and the command
state only (R325). -/
theorem step_of_no_command {s : State} (hissued : s.issued) (hagenda : s.agenda = []) (h : ∀ i, decode s.cmd ≠ .ok i) :
    step s = .next (s.ended .eillegal) := by
  have hrun : step s = runCommand s := by simp [step, hagenda]
  rw [hrun, Laws.runCommand_eq_runPlan, planOfWord_eq_illegalPlan h,
    Laws.runPlan_check_error illegalPlan s .eillegal hissued rfl]
  rfl

/-- Settles O2: both the decoder and the table go with the encoder, and a word outside them fails the check of its plan. -/
theorem legalWordsAreTheTable : Obligations.LegalWordsAreTheTable := by
  refine ⟨decode_eq_ok_iff_mem, fun w hbits i => ?_, fun s hissued hagenda hrows => ⟨?_, hostAccess_read_offset .cmd _⟩⟩
  · have hrsv : fieldRsv w ≠ 0 := fun h => hbits (BitVec.eq_of_toNat_eq h)
    simp [decode_reservedBits hrsv]
  · exact step_of_no_command hissued hagenda fun i => (decode_eq_ok_iff_mem s.cmd i).not.2 (hrows i)

/-- Settles O3: six rows of the table, and three words with a field the decoder refuses. -/
theorem knownWordsDecode : Obligations.KnownWordsDecode := by
  refine ⟨?_, ?_, ?_, ?_, ?_, ?_, ?smode, ?opc, ?rsv⟩
  case smode => exact decode_reservedSmode (o := .sample) rfl rfl rfl
  case opc => exact decode_unknownOpc rfl rfl
  case rsv => exact decode_reservedBits (by decide)
  all_goals
    rw [decode_eq_ok_iff]
    rfl

/-! ### Words put together from their parts -/

theorem ofNat_shiftLeft (a n : Nat) : BitVec.ofNat 64 a <<< n = BitVec.ofNat 64 (a * 2 ^ n) := by
  apply BitVec.eq_of_toNat_eq
  simp [Nat.shiftLeft_eq]

/-- A part above and a part below bit `n` do not overlap, so that their union is their sum. -/
theorem shiftLeft_or_ofNat (a : Nat) {b n : Nat} (hb : b < 2 ^ n) :
    BitVec.ofNat 64 a <<< n ||| BitVec.ofNat 64 b = BitVec.ofNat 64 (a * 2 ^ n + b) := by
  rw [← Nat.shiftLeft_eq, Nat.shiftLeft_add_eq_or_of_lt hb, BitVec.ofNat_or, Nat.shiftLeft_eq, ofNat_shiftLeft]

/-- Three parts, the middle one from bit `m` to bit `n`. -/
theorem shiftLeft_or_or_ofNat (a : Nat) {b c m n : Nat} (hc : c < 2 ^ m) (hbc : b * 2 ^ m + c < 2 ^ n) :
    BitVec.ofNat 64 a <<< n ||| BitVec.ofNat 64 b <<< m ||| BitVec.ofNat 64 c =
      BitVec.ofNat 64 (a * 2 ^ n + b * 2 ^ m + c) := by
  rw [BitVec.or_assoc, shiftLeft_or_ofNat b hc, shiftLeft_or_ofNat a hbc, Nat.add_assoc]

/-- Settles O54: the words of `cfg`, `dim`, `arg0` and `arg1` are sums of parts that do not overlap. -/
theorem pseudoInstructionExpansions : Obligations.PseudoInstructionExpansions := by
  refine ⟨fun _ => rfl, fun _ _ => rfl, rfl, fun p r ie => ?cfg, fun h w => ?dim, fun row col p => ?arg0, fun v k => ?arg1,
    fun _ => rfl⟩ <;>
    simp only [Pseudo.expand, ← BitVec.ofNat_toNat]
  case cfg => rw [shiftLeft_or_or_ofNat _ p.isLt (by have := p.isLt; have := r.isLt; omega)]
  case dim => rw [shiftLeft_or_ofNat _ h.isLt]
  case arg0 => rw [shiftLeft_or_or_ofNat _ row.isLt (by have := row.isLt; have := col.isLt; omega)]
  case arg1 => rw [shiftLeft_or_ofNat _ v.isLt]

end Sys2Proof.Proofs
end

section
/-!
PROOFS. SAMPLE and the sampling function (41_sampler.md R160 to R170): the places a mode reads, the commands, the exact values at
integer points, the bounds of the coordinates and the reference table: O11, O12, O31, O32, O30.
-/
namespace Sys2Proof.Proofs

open Sys2Proof Sys2Proof.Machine

/-! ### The places of a mode -/

theorem readPixel_inside {s : State} {a b : Int} (h : s.inImage a b = true) (p : Nat) :
    readPixel s a b p = .ok (f64OfNat (s.imgAt a.toNat b.toNat).toNat) :=
  if_pos h

/-- The first of some places that is outside the image. -/
def firstOutside (s : State) (places : List (Int × Int)) : Option (Int × Int) :=
  places.find? (fun q => !s.inImage q.1 q.2)

theorem firstOutside_eq_none_iff (s : State) (places : List (Int × Int)) :
    firstOutside s places = none ↔ ∀ q ∈ places, s.inImage q.1 q.2 = true := by
  simp [firstOutside]

/-- A read fails with the first place outside the image, be it its own or one that is read after it. -/
theorem readPixel_bind_outside {α : Type} {s : State} {a b : Int} {rest : List (Int × Int)} {q : Int × Int} {p : Nat}
    {f : F64 → Except OutOfBounds α} (h : firstOutside s ((a, b) :: rest) = some q)
    (hrest : firstOutside s rest = some q → ∀ v, f v = .error ⟨q.1, q.2, p⟩) :
    readPixel s a b p >>= f = .error ⟨q.1, q.2, p⟩ := by
  rw [firstOutside, List.find?_cons] at h
  rcases Laws.readPixel_cases s a b p with ⟨hin, hread⟩ | ⟨hout, hread⟩ <;> rw [hread]
  · rw [hin] at h
    exact hrest h _
  · rw [hout] at h
    cases h
    rfl

/-- A read that is the only one, likewise. -/
theorem readPixel_outside {s : State} {a b : Int} {q : Int × Int} {p : Nat} (h : firstOutside s [(a, b)] = some q) :
    readPixel s a b p = .error ⟨q.1, q.2, p⟩ := by
  have hbind := readPixel_bind_outside (p := p) (f := Except.ok) h nofun
  rwa [show readPixel s a b p >>= Except.ok = readPixel s a b p from bind_pure _] at hbind

/-- The value of a sample whose places are all in the image: the pixel there, or the blend of the four corners. -/
def valueAt (s : State) (m : Mode) (x y : F64) : F64 :=
  let pixel (a b : Int) : F64 := f64OfNat (s.imgAt a.toNat b.toNat).toNat
  match m with
  | .nearest => pixel (rndAwayF x) (rndAwayF y)
  | .truncate => pixel (truncF x) (truncF y)
  | .bilinear =>
    blend (fsub x (f64OfInt (floorF x))) (fsub y (f64OfInt (floorF y))) (pixel (floorF x) (floorF y))
      (pixel (ceilF x) (floorF y)) (pixel (floorF x) (ceilF y)) (pixel (ceilF x) (ceilF y))

/-- The first place outside the image is the failed test; bilinear mode tests its corners in the order TL, TR, BL, BR. -/
theorem sampleMode_outside {s : State} {m : Mode} {x y : F64} {q : Int × Int} (p : Nat)
    (h : firstOutside s (readPlaces m x y) = some q) : sampleMode s m x y p = .error ⟨q.1, q.2, p⟩ := by
  cases m with
  | nearest => exact readPixel_outside h
  | truncate => exact readPixel_outside h
  | bilinear =>
    refine readPixel_bind_outside h fun htr _ => ?_
    refine readPixel_bind_outside htr fun hbl _ => ?_
    refine readPixel_bind_outside hbl fun hbr _ => ?_
    exact readPixel_bind_outside hbr nofun

theorem sampleMode_inside {s : State} {m : Mode} {x y : F64} (p : Nat) (h : firstOutside s (readPlaces m x y) = none) :
    sampleMode s m x y p = .ok (valueAt s m x y) := by
  rw [firstOutside_eq_none_iff] at h
  cases m with
  | nearest => exact readPixel_inside (h _ (List.mem_singleton_self _)) p
  | truncate => exact readPixel_inside (h _ (List.mem_singleton_self _)) p
  | bilinear =>
    simp only [readPlaces, List.forall_mem_cons] at h
    obtain ⟨htl, htr, hbl, hbr, -⟩ := h
    simp only [sampleMode, sampleBilinear, readPixel_inside htl, readPixel_inside htr, readPixel_inside hbl,
      readPixel_inside hbr]
    rfl

/-- A sample depends on CTRL, DIM, IMG and the trig parameter only (41_sampler.md R168); the epoch is part of IMG, since it
chooses the bytes nothing has written. -/
theorem sample_congr {s t : State} (hctrl : t.ctrl = s.ctrl) (hdim : t.dim = s.dim) (himg : t.img = s.img)
    (hepoch : t.epoch = s.epoch) (htrig : t.trig = s.trig) (m : Mode) (r c p : Nat) :
    sample t m r c p = sample s m r c p := by
  have hframe : t = { t with ctrl := s.ctrl, dim := s.dim, img := s.img, epoch := s.epoch, trig := s.trig } := by
    rw [← hctrl, ← hdim, ← himg, ← hepoch, ← htrig]
  rw [hframe]
  rfl

/-- Settles O11: by the first place outside the image. -/
theorem sampleReadsItsPlaces : Obligations.SampleReadsItsPlaces := by
  refine ⟨fun s m r c p => ⟨fun q h => sampleMode_outside p h, fun h => ?_⟩,
    fun s t m r c p hctrl hdim himg hepoch htrig => sample_congr hctrl hdim himg hepoch htrig m r c p⟩
  have hvalue := sampleMode_inside p h
  cases m <;> exact hvalue

/-! ### The SAMPLE commands -/

/-- The work of a SAMPLE command. -/
theorem planOf_sample {i : Instr} {m : Mode} (h : (i, m) ∈ sampleForms) : (planOf i).work = .component (sampleWork m) := by
  fin_cases h <;> rfl

theorem sampleWork_ok {m : Mode} {s : State} {v : F64} (h : sample s m s.argRow s.argCol s.argSidx = .ok v) :
    sampleWork m s = .ok { result := some v, samples := [(s.argSidx, v)] } := by
  rw [sampleWork, h]

theorem sampleWork_error {m : Mode} {s : State} {o : OutOfBounds}
    (h : sample s m s.argRow s.argCol s.argSidx = .error o) : sampleWork m s = .error o := by
  rw [sampleWork, h]

/-- Settles O12: an accepted SAMPLE runs its work, and completion writes what it pends, or records the failed test. -/
theorem sampleCommandResult : Obligations.SampleCommandResult := by
  intro i m s hform hissued haccepts
  have hcheck := (Laws.accepts_iff i s).1 haccepts
  have hwork := planOf_sample hform
  rw [Laws.exec_eq_runPlan]
  refine ⟨fun v hv => ?ok, fun o ho => ?error⟩
  case ok => exact Laws.runPlan_component_ok _ s _ _ hissued hcheck hwork (sampleWork_ok (s := Laws.executing s) hv)
  case error =>
    exact Laws.runPlan_component_error _ s _ o hissued hcheck hwork (sampleWork_error (s := Laws.executing s) ho)

/-! ### Exact operations on naturals -/

theorem isNeg_roundPack (neg : Bool) (m : ℕ) (e : ℤ) (sticky : Bool) : isNeg (roundPack neg m e sticky) = neg := by
  unfold roundPack
  split
  · exact isNeg_withSign neg (by norm_num)
  · refine isNeg_withSign neg ?_
    rw [← min_def]
    exact (min_le_left _ _).trans_lt (by decide)

theorem toNat_eq_sign_add_magKey (x : F64) : x.toNat = (if isNeg x then 2 ^ 63 else 0) + magKey x := by
  have := x.isLt
  simp only [isNeg, BitVec.msb_eq_decide, magKey_eq_mod, decide_eq_true_eq]
  split <;> omega

/-- Only the two zeros have one value. -/
theorem eq_of_isNeg_of_f64Value {x y : F64} (hsign : isNeg x = isNeg y) (hvalue : f64Value x = f64Value y) : x = y := by
  rw [f64Value_eq, f64Value_eq, hsign] at hvalue
  have hfactor : signFactor (isNeg y) ≠ 0 := by cases isNeg y <;> simp
  have hunits : (keyUnits (magKey x) : ℚ) = keyUnits (magKey y) :=
    mul_right_cancel₀ leastSubnormal_pos.ne' (mul_left_cancel₀ hfactor hvalue)
  have hkey : magKey x = magKey y := keyUnits_strictMono.injective (by exact_mod_cast hunits)
  exact BitVec.eq_of_toNat_eq (by rw [toNat_eq_sign_add_magKey x, toNat_eq_sign_add_magKey y, hsign, hkey])

theorem isNeg_f64OfNat (n : ℕ) : isNeg (f64OfNat n) = false := by
  rw [f64OfNat, f64OfInt, isNeg_roundPack]
  simp

theorem f64OfNat_exact {n : ℕ} (hn : n ≤ 2 ^ 53) : isFinite (f64OfNat n) = true ∧ f64Value (f64OfNat n) = n :=
  f64OfInt_exact (by rw [abs_of_nonneg (by positivity)]; exact_mod_cast hn)

theorem zero64_eq : Config.zero64 = f64OfNat 0 := by decide

theorem one64_eq : Config.one64 = f64OfNat 1 := by decide

/-- A natural that can be encoded is kept by rounding, and its sign makes it one encoding. -/
theorem RoundedTo.eq_f64OfNat {n : ℕ} {x : F64} (h : RoundedTo n x) (hsign : isNeg x = false) (hn : n ≤ 2 ^ 53) :
    x = f64OfNat n := by
  obtain ⟨hfinite, hvalue⟩ := f64OfNat_exact hn
  have hbound : |(n : ℚ)| < overflowBound := by
    rw [Nat.abs_cast]
    exact lt_of_le_of_lt (by exact_mod_cast hn) two_pow_lt_overflowBound
  refine eq_of_isNeg_of_f64Value (hsign.trans (isNeg_f64OfNat n).symm) ?_
  rw [hvalue]
  exact eq_of_roundsTo (h.1 hbound) hfinite hvalue

theorem isNeg_fadd {a b : F64} (ha : isFinite a = true) (hb : isFinite b = true) (hsign : isNeg a = false)
    (hsum : 0 ≤ f64Value a + f64Value b) : isNeg (fadd a b) = false := by
  rw [fadd_eq ha hb]
  split
  · rw [isNeg_withSign _ (by norm_num), hsign, Bool.false_and]
  · rw [isNeg_roundPack, decide_eq_false_iff_not, not_lt]
    rw [f64Value_add] at hsum
    exact_mod_cast nonneg_of_mul_nonneg_left hsum (by positivity)

theorem isNeg_fmul {a b : F64} (ha : isFinite a = true) (hb : isFinite b = true) :
    isNeg (fmul a b) = (isNeg a != isNeg b) := by
  rw [fmul_eq ha hb, isNeg_roundPack]

theorem fadd_f64OfNat {m n : ℕ} (h : m + n ≤ 2 ^ 53) : fadd (f64OfNat m) (f64OfNat n) = f64OfNat (m + n) := by
  obtain ⟨hm, hmv⟩ := f64OfNat_exact (show m ≤ 2 ^ 53 by omega)
  obtain ⟨hn, hnv⟩ := f64OfNat_exact (show n ≤ 2 ^ 53 by omega)
  have hround := fadd_roundedTo hm hn
  rw [hmv, hnv, ← Nat.cast_add] at hround
  exact hround.eq_f64OfNat (isNeg_fadd hm hn (isNeg_f64OfNat m) (by rw [hmv, hnv]; positivity)) h

theorem fsub_self_f64OfNat {n : ℕ} (h : n ≤ 2 ^ 53) : fsub (f64OfNat n) (f64OfNat n) = f64OfNat 0 := by
  obtain ⟨hn, -⟩ := f64OfNat_exact h
  have hround := fsub_roundedTo hn hn
  rw [sub_self, ← Nat.cast_zero] at hround
  refine hround.eq_f64OfNat (isNeg_fadd hn (by rwa [isFinite_fneg]) (isNeg_f64OfNat n) ?_) (Nat.zero_le _)
  rw [f64Value_fneg, add_neg_cancel]

theorem fmul_f64OfNat {m n : ℕ} (hm : m ≤ 2 ^ 53) (hn : n ≤ 2 ^ 53) (h : m * n ≤ 2 ^ 53) :
    fmul (f64OfNat m) (f64OfNat n) = f64OfNat (m * n) := by
  obtain ⟨hm, hmv⟩ := f64OfNat_exact hm
  obtain ⟨hn, hnv⟩ := f64OfNat_exact hn
  have hround := fmul_roundedTo hm hn
  rw [hmv, hnv, ← Nat.cast_mul] at hround
  exact hround.eq_f64OfNat (by rw [isNeg_fmul hm hn, isNeg_f64OfNat, isNeg_f64OfNat]; rfl) h

theorem floorF_f64OfNat {n : ℕ} (hn : n ≤ 2 ^ 53) : floorF (f64OfNat n) = n := by
  obtain ⟨hfinite, hvalue⟩ := f64OfNat_exact hn
  rw [floorF_eq hfinite, hvalue, Int.floor_natCast]

theorem ceilF_f64OfNat {n : ℕ} (hn : n ≤ 2 ^ 53) : ceilF (f64OfNat n) = n := by
  obtain ⟨hfinite, hvalue⟩ := f64OfNat_exact hn
  rw [ceilF_eq hfinite, hvalue, Int.ceil_natCast]

/-! ### Bilinear sampling at an integer point -/

/-- With both weights +0 a blend of four equal corners is the corner. -/
theorem blend_zero_f64OfNat {n : ℕ} (hn : n ≤ 2 ^ 53) :
    blend (f64OfNat 0) (f64OfNat 0) (f64OfNat n) (f64OfNat n) (f64OfNat n) (f64OfNat n) = f64OfNat n := by
  have hone : fsub Config.one64 (f64OfNat 0) = f64OfNat 1 := by decide
  have hkeep : fadd (fmul (f64OfNat 1) (f64OfNat n)) (fmul (f64OfNat 0) (f64OfNat n)) = f64OfNat n := by
    rw [fmul_f64OfNat (by norm_num) hn (by omega), fmul_f64OfNat (by norm_num) hn (by omega), fadd_f64OfNat (by omega)]
    congr 1
    omega
  simp only [blend, hone, hkeep]

/-- All corners of an integer point are its pixel, and both weights are +0 (41_sampler.md R170). -/
theorem sampleMode_bilinear_f64OfNat {s : State} {r c : Nat} (h : s.inImage r c = true) (p : Nat) :
    sampleMode s .bilinear (f64OfNat r) (f64OfNat c) p = .ok (f64OfNat (s.imgAt r c).toNat) := by
  have hheight : s.height < 2 ^ 16 := BitVec.isLt _
  have hwidth : s.width < 2 ^ 16 := BitVec.isLt _
  have hlt : r < s.height ∧ c < s.width := by simpa [State.inImage] using h
  have hr : r ≤ 2 ^ 53 := by omega
  have hc : c ≤ 2 ^ 53 := by omega
  have hpixel : (s.imgAt r c).toNat < 2 ^ 8 := BitVec.isLt _
  have hvalue : valueAt s .bilinear (f64OfNat r) (f64OfNat c) = f64OfNat (s.imgAt r c).toNat := by
    simp only [valueAt, floorF_f64OfNat hr, floorF_f64OfNat hc, ceilF_f64OfNat hr, ceilF_f64OfNat hc, Int.toNat_natCast]
    rw [← f64OfNat, ← f64OfNat, fsub_self_f64OfNat hr, fsub_self_f64OfNat hc, blend_zero_f64OfNat (by omega)]
  rw [← hvalue]
  refine sampleMode_inside p ?_
  simp [firstOutside, readPlaces, floorF_f64OfNat hr, floorF_f64OfNat hc, ceilF_f64OfNat hr, ceilF_f64OfNat hc, h]

/-! ### The trig parameter -/

/-- An angle is one the state lists, or one of the free functions. -/
theorem trig_cases (s : State) (θ : F64) :
    (∃ e ∈ s.trig, e.theta = θ ∧ s.sinF θ = e.sin ∧ s.cosF θ = e.cos) ∨
      (s.sinF θ = Config.sinF θ ∧ s.cosF θ = Config.cosF θ) := by
  unfold State.sinF State.cosF
  cases h : s.trig.find? (fun e => e.theta == θ) with
  | some e => exact .inl ⟨e, List.mem_of_find?_eq_some h, by simpa using List.find?_some h, rfl, rfl⟩
  | none => exact .inr ⟨rfl, rfl⟩

/-- At the angle +0.0 legal parameters have sinF = +0.0 and cosF = 1.0 (41_sampler.md R161, log 5). -/
theorem trig_zero {s : State} (h : s.paramsOk = true) :
    s.sinF Config.zero64 = f64OfNat 0 ∧ s.cosF Config.zero64 = f64OfNat 1 := by
  rw [← zero64_eq, ← one64_eq]
  rcases trig_cases s Config.zero64 with ⟨e, he, htheta, hsin, hcos⟩ | ⟨hsin, hcos⟩ <;> rw [hsin, hcos]
  · have hlegal : e.legal = true := by
      simp only [State.paramsOk, Bool.and_eq_true, List.all_eq_true] at h
      exact h.2 e he
    simp only [Config.TrigEntry.legal, htheta, bne_self_eq_false, Bool.false_or, Bool.and_eq_true, beq_iff_eq] at hlegal
    exact hlegal.2
  · exact ⟨if_pos rfl, if_pos rfl⟩

/-- Sample 0 lies at (r, c + R) exactly. -/
theorem sample_zero_at {s : State} {r c : Nat} (hparams : s.paramsOk = true) (hP : s.cfgP = 8) (hr : r ≤ 65535)
    (hc : c ≤ 65535) : sampleX s r 0 = f64OfNat r ∧ sampleY s c 0 = f64OfNat (c + s.cfgR) := by
  have hR : s.cfgR < 2 ^ 8 := BitVec.isLt _
  have htheta : theta 8 0 = Config.zero64 := by decide
  obtain ⟨hsin, hcos⟩ := trig_zero hparams
  rw [sampleX, sampleY, hP, htheta, hsin, hcos, fmul_f64OfNat (by omega) (by norm_num) (by omega),
    fmul_f64OfNat (by omega) (by norm_num) (by omega), fadd_f64OfNat (by omega), fadd_f64OfNat (by omega), mul_zero,
    mul_one, add_zero]
  exact ⟨rfl, rfl⟩

/-! ### The reference table -/

/-- The reset state with the reference table as its trig parameter. -/
def referenceState : State := { State.reset with trig := Config.trigTable }

theorem reference_trig {s : State} (h : s.trig = Config.trigTable) (θ : F64) :
    s.sinF θ = referenceState.sinF θ ∧ s.cosF θ = referenceState.cosF θ := by
  simp only [State.sinF, State.cosF, h]
  exact ⟨rfl, rfl⟩

/-- The coordinates of R = 1 and P = 8 under the reference table are those of the reset state, which has this R and P. -/
theorem reference_coordinates {s : State} (h : s.trig = Config.trigTable) (hP : s.cfgP = 8) (hR : s.cfgR = 1) (n p : Nat) :
    sampleX s n p = sampleX referenceState n p ∧ sampleY s n p = sampleY referenceState n p := by
  simp only [sampleX, sampleY, hP, hR, reference_trig h, show referenceState.cfgP = 8 by decide,
    show referenceState.cfgR = 1 by decide, and_self]

/-- Settles O31: the corners of an integer point are one pixel, sample 0 is a sum of naturals, and three coordinates under the
reference table are computed. -/
theorem bilinearAtIntegerPoint : Obligations.BilinearAtIntegerPoint := by
  refine ⟨fun s r c p h => sampleMode_bilinear_f64OfNat h p, fun s r c => sample_zero_at, fun s htrig hP hR => ?_⟩
  simp only [reference_coordinates htrig hP hR]
  decide

/-- Settles O30: the reference table lists the angles that `theta` computes. -/
theorem referenceTrigValues : Obligations.ReferenceTrigValues := by
  intro s h
  simp only [reference_trig h]
  decide

/-! ### The reach of the coordinates -/

/-- Rounding keeps a value between two integers that can be encoded. -/
theorem RoundedTo.mem_Icc {q : ℚ} {x : F64} {m n : ℤ} (h : RoundedTo q x) (hm : |m| ≤ 2 ^ 53) (hn : |n| ≤ 2 ^ 53)
    (hq : q ∈ Set.Icc (m : ℚ) n) : isFinite x = true ∧ f64Value x ∈ Set.Icc (m : ℚ) n := by
  obtain ⟨hlow, hhigh⟩ := hq
  obtain ⟨hmf, hmv⟩ := f64OfInt_exact hm
  obtain ⟨hnf, hnv⟩ := f64OfInt_exact hn
  have hm' : |(m : ℚ)| ≤ (2 : ℚ) ^ (53 : ℤ) := by exact_mod_cast hm
  have hn' : |(n : ℚ)| ≤ (2 : ℚ) ^ (53 : ℤ) := by exact_mod_cast hn
  have hbound : |q| ≤ (2 : ℚ) ^ (53 : ℤ) :=
    abs_le.2 ⟨(abs_le.1 hm').1.trans hlow, hhigh.trans (abs_le.1 hn').2⟩
  obtain ⟨hfinite, hnearest⟩ := h.1 (hbound.trans_lt two_pow_lt_overflowBound)
  have hnearLow := (hnearest _ hmf).1
  have hnearHigh := (hnearest _ hnf).1
  rw [hmv, abs_of_nonpos (sub_nonpos.2 hlow)] at hnearLow
  rw [hnv, abs_of_nonneg (sub_nonneg.2 hhigh)] at hnearHigh
  have hleft := neg_abs_le (f64Value x - q)
  have hright := le_abs_self (f64Value x - q)
  exact ⟨hfinite, by linarith, by linarith⟩

theorem abs_f64Value (x : F64) : |f64Value x| = keyUnits (magKey x) * leastSubnormal := by
  rw [f64Value_eq, abs_mul, abs_signFactor, one_mul, abs_of_nonneg (mul_nonneg (Nat.cast_nonneg _) leastSubnormal_pos.le)]

/-- The test of 00_scope.md R10 on the encoding bounds the value. -/
theorem abs_f64Value_le_one {x : F64} (h : Config.inUnit x = true) : isFinite x = true ∧ |f64Value x| ≤ 1 := by
  have hkey : magKey x ≤ magKey Config.one64 := by
    rw [Config.inUnit, decide_eq_true_eq] at h
    exact h
  have hone : |f64Value Config.one64| = 1 := by
    rw [one64_eq, (f64OfNat_exact (by norm_num)).2]; norm_num
  refine ⟨(isFinite_iff x).2 (hkey.trans_lt (by decide)), ?_⟩
  rw [← hone, abs_f64Value, abs_f64Value]
  have hunits : (keyUnits (magKey x) : ℚ) ≤ keyUnits (magKey Config.one64) := by
    exact_mod_cast keyUnits_strictMono.monotone hkey
  exact mul_le_mul_of_nonneg_right hunits leastSubnormal_pos.le

theorem inUnit_clampUnit (x : F64) : Config.inUnit (Config.clampUnit x) = true := by
  unfold Config.clampUnit
  split
  · assumption
  · decide

theorem inUnit_config (θ : F64) : Config.inUnit (Config.sinF θ) = true ∧ Config.inUnit (Config.cosF θ) = true := by
  unfold Config.sinF Config.cosF
  split
  · decide
  · exact ⟨inUnit_clampUnit _, inUnit_clampUnit _⟩

theorem inUnit_trig {s : State} (h : s.trigInUnit = true) (θ : F64) :
    Config.inUnit (s.sinF θ) = true ∧ Config.inUnit (s.cosF θ) = true := by
  rcases trig_cases s θ with ⟨e, he, -, hsin, hcos⟩ | ⟨hsin, hcos⟩ <;> rw [hsin, hcos]
  · simp only [State.trigInUnit, List.all_eq_true, Bool.and_eq_true] at h
    exact h e he
  · exact inUnit_config θ

/-- A centre coordinate and R times a factor in [−1, +1]: neither the product nor the sum rounds past its integer bounds. -/
theorem coordinate_mem_reach {n R : ℕ} (hn : n ≤ 65535) (hR : R < 2 ^ 8) {t : F64} (ht : Config.inUnit t = true) :
    isFinite (fadd (f64OfNat n) (fmul (f64OfNat R) t)) = true ∧
      |f64Value (fadd (f64OfNat n) (fmul (f64OfNat R) t)) - n| ≤ R := by
  obtain ⟨hnf, hnv⟩ := f64OfNat_exact (show n ≤ 2 ^ 53 by omega)
  obtain ⟨hRf, hRv⟩ := f64OfNat_exact (show R ≤ 2 ^ 53 by omega)
  obtain ⟨htf, htv⟩ := abs_f64Value_le_one ht
  have hoffset : |f64Value (f64OfNat R) * f64Value t| ≤ R := by
    rw [abs_mul, hRv, Nat.abs_cast]
    exact mul_le_of_le_one_right (Nat.cast_nonneg R) htv
  obtain ⟨hof, holow, hohigh⟩ := (fmul_roundedTo hRf htf).mem_Icc (m := -R) (n := R)
    (abs_le.2 (by omega)) (abs_le.2 (by omega)) (by push_cast; exact abs_le.1 hoffset)
  push_cast at holow hohigh
  obtain ⟨hxf, hxlow, hxhigh⟩ := (fadd_roundedTo hnf hof).mem_Icc (m := n - R) (n := n + R)
    (abs_le.2 (by omega)) (abs_le.2 (by omega)) (by rw [hnv]; push_cast; constructor <;> linarith)
  push_cast at hxlow hxhigh
  exact ⟨hxf, abs_le.2 ⟨by linarith, by linarith⟩⟩

/-- Settles O32: rounding is monotone, and the bounds are integers that can be encoded. -/
theorem sampleCoordinatesStayInReach : Obligations.SampleCoordinatesStayInReach := by
  intro s r c p h hr hc
  have hR : s.cfgR < 2 ^ 8 := BitVec.isLt _
  have hunit := inUnit_trig h
  obtain ⟨hxf, hx⟩ := coordinate_mem_reach hr hR (hunit (theta s.cfgP p)).1
  obtain ⟨hyf, hy⟩ := coordinate_mem_reach hc hR (hunit (theta s.cfgP p)).2
  refine ⟨fun θ => ?_, hxf, hx, hyf, hy⟩
  obtain ⟨hsin, hcos⟩ := hunit θ
  obtain ⟨hsf, hsv⟩ := abs_f64Value_le_one hsin
  obtain ⟨hcf, hcv⟩ := abs_f64Value_le_one hcos
  exact ⟨hsf, hsv, hcf, hcv⟩

end Sys2Proof.Proofs
end

section
/-!
PROOFS. The encoder (42_encoder.md R200 to R209): the packings as sums and as bits, the two comparison rules, the commands ENCODE and
BANDCMP: O20, O21, O22, O13, O14.
-/
namespace Sys2Proof.Proofs

open Sys2Proof Sys2Proof.Machine

/-! ### The packings -/

theorem packL_eq_sum (bits : List Bool) :
    packL bits = ∑ p ∈ Finset.range bits.length, (bits.getD p false).toNat * 2 ^ p := by
  induction bits with
  | nil => rfl
  | cons b rest ih =>
    rw [packL, ih, List.length_cons, Finset.sum_range_succ', Finset.mul_sum, add_comm]
    simp [pow_succ', mul_left_comm]

/-- Reversing the bits reverses the exponents. -/
theorem packM_eq_sum (bits : List Bool) :
    packM bits = ∑ p ∈ Finset.range bits.length, (bits.getD p false).toNat * 2 ^ (bits.length - 1 - p) := by
  rw [packM, packL_eq_sum, List.length_reverse, ← Finset.sum_range_reflect]
  refine Finset.sum_congr rfl fun p hp => ?_
  have hp := Finset.mem_range.1 hp
  rw [List.getD_reverse _ (by omega), Nat.sub_sub_self (by omega)]

theorem packL_lt (bits : List Bool) : packL bits < 2 ^ bits.length := by
  induction bits with
  | nil => simp [packL]
  | cons b rest ih =>
    have hbit := b.toNat_le
    rw [packL, List.length_cons, pow_succ]
    omega

theorem packM_lt (bits : List Bool) : packM bits < 2 ^ bits.length := by
  simpa [packM] using packL_lt bits.reverse

theorem testBit_packL (bits : List Bool) (j : ℕ) : (packL bits).testBit j = bits.getD j false := by
  induction bits generalizing j with
  | nil => simp [packL]
  | cons b rest ih =>
    have hbit : packL (b :: rest) = Nat.bit b (packL rest) := by rw [packL, Nat.bit_val, add_comm]
    cases j with
    | zero => rw [hbit, Nat.testBit_bit_zero, List.getD_cons_zero]
    | succ j => rw [hbit, Nat.testBit_bit_succ, ih, List.getD_cons_succ]

theorem testBit_packM {bits : List Bool} {j : ℕ} (hj : j < bits.length) :
    (packM bits).testBit j = (packL bits).testBit (bits.length - 1 - j) := by
  rw [packM, testBit_packL, testBit_packL, List.getD_reverse _ hj]

/-- Settles O20: the sums follow the list, and MSB-first packing is LSB-first packing of the reversed bits. -/
theorem packingOrders : Obligations.PackingOrders :=
  ⟨fun bits => ⟨packM_eq_sum bits, packL_eq_sum bits, packM_lt bits, packL_lt bits, fun _ => testBit_packM⟩,
    fun _ => ⟨rfl, rfl⟩, rfl, rfl, rfl, rfl⟩

/-! ### Comparisons with infinities -/

theorem isFinite_iff_abs_lt (x : F64) : isFinite x = true ↔ |f64Value x| < keyUnits infBits * leastSubnormal := by
  rw [isFinite_iff, abs_f64Value, mul_lt_mul_iff_left₀ leastSubnormal_pos, Nat.cast_lt, keyUnits_strictMono.lt_iff_lt]

/-- The comparison of any two encodings, in which an infinity counts as the first magnitude after the finite ones. -/
theorem fle_eq_true_iff (a b : F64) :
    fle a b = true ↔ isNaN a = false ∧ isNaN b = false ∧ f64Value a ≤ f64Value b := by
  simp [fle, orderKey_le_iff, and_assoc]

theorem fle_refl {a : F64} (ha : isNaN a = false) : fle a a = true := (fle_eq_true_iff a a).2 ⟨ha, ha, le_rfl⟩

theorem f64Value_infinity (neg : Bool) :
    f64Value (withSign neg infBits) = signFactor neg * (keyUnits infBits * leastSubnormal) :=
  f64Value_withSign neg (by decide)

theorem fle_negInfinity {a : F64} (ha : isFinite a = true) : fle a (withSign true infBits) = false := by
  have hlow := neg_lt_of_abs_lt ((isFinite_iff_abs_lt a).1 ha)
  rw [Bool.eq_false_iff, ne_eq, fle_eq_true_iff, f64Value_infinity, signFactor_true, neg_one_mul]
  exact fun ⟨_, _, hle⟩ => hlow.not_ge hle

theorem fle_posInfinity {a : F64} (ha : isFinite a = true) : fle a (withSign false infBits) = true := by
  have hhigh := lt_of_abs_lt ((isFinite_iff_abs_lt a).1 ha)
  rw [fle_eq_true_iff, f64Value_infinity, signFactor_false, one_mul]
  exact ⟨isNaN_eq_false ha, by decide, hhigh.le⟩

/-- Between finite bounds lie the finite values between theirs, and neither an infinity nor a NaN. -/
theorem between_iff {a b : F64} (ha : isFinite a = true) (hb : isFinite b = true) (s : F64) :
    (fle a s && fle s b) = true ↔ isFinite s = true ∧ f64Value a ≤ f64Value s ∧ f64Value s ≤ f64Value b := by
  rw [Bool.and_eq_true]
  constructor
  · rintro ⟨hlow, hhigh⟩
    obtain ⟨-, -, hlow⟩ := (fle_eq_true_iff a s).1 hlow
    obtain ⟨-, -, hhigh⟩ := (fle_eq_true_iff s b).1 hhigh
    rw [isFinite_iff_abs_lt] at ha hb
    exact ⟨(isFinite_iff_abs_lt s).2 ((abs_le_max_abs_abs hlow hhigh).trans_lt (max_lt ha hb)), hlow, hhigh⟩
  · rintro ⟨hs, hlow, hhigh⟩
    exact ⟨(fle_iff ha hs).2 hlow, (fle_iff hs hb).2 hhigh⟩

/-! ### The threshold rule -/

theorem isFinite_center (cen : Byte) : isFinite (f64OfNat cen.toNat) = true :=
  (f64OfNat_exact (by have := cen.isLt; omega)).1

theorem f64Value_center (cen : Byte) : f64Value (f64OfNat cen.toNat) = cen.toNat :=
  (f64OfNat_exact (by have := cen.isLt; omega)).2

/-- Settles O21: the rule compares with the centre, which is a finite value. -/
theorem thresholdRule : Obligations.ThresholdRule := by
  refine ⟨fun _ _ => rfl, fun s cen hs => ?finite, fun s cen hs => fle_eq_false_of_isNaN (.inr hs), fun cen => ?special⟩
  case finite => rw [bitT, fge, fle_iff (isFinite_center cen) hs, f64Value_center]
  case special =>
    have hcen := isFinite_center cen
    exact ⟨fle_negInfinity hcen, fle_posInfinity hcen, fle_refl (isNaN_eq_false hcen), by decide, by decide⟩

/-! ### The band rule -/

/-- One more than a finite value does not overflow: the overflow bound lies half a gap above
the greatest finite value, and that gap is greater than 2. -/
theorem one_add_abs_lt_overflowBound {b : F64} (hb : isFinite b = true) : 1 + |f64Value b| < overflowBound := by
  have hkey : keyUnits (magKey b) ≤ keyUnits (infBits - 1) :=
    keyUnits_strictMono.monotone (Nat.le_sub_one_of_lt ((isFinite_iff b).1 hb))
  have hgap : keyUnits infBits = keyUnits (infBits - 1) + 2 ^ 2045 := by
    rw [keyUnits_infBits_pred, keyUnits_infBits]
    generalize 2 ^ 2045 = unit
    omega
  have hpow : (2 : ℚ) * 2 ^ 1074 < 2 ^ 2045 := by
    rw [← pow_succ']
    exact pow_lt_pow_right₀ one_lt_two (by norm_num)
  rw [overflowBound_eq, abs_f64Value, ← two_pow_mul_leastSubnormal, ← add_mul, mul_lt_mul_iff_left₀ leastSubnormal_pos,
    hgap, Nat.cast_add, Nat.cast_pow, Nat.cast_ofNat]
  have hkey' : (keyUnits (magKey b) : ℚ) ≤ keyUnits (infBits - 1) := by exact_mod_cast hkey
  generalize (2 : ℚ) ^ 1074 = one at *
  generalize (2 : ℚ) ^ 2045 = gap at *
  linarith

/-- A legal B is a finite value that is not negative; the encoding may be −0 (42_encoder.md R203). -/
theorem bandLegal_iff (b : F64) : bandLegal b = true ↔ isFinite b = true ∧ 0 ≤ f64Value b := by
  have hzero : isFinite Config.zero64 = true ∧ f64Value Config.zero64 = 0 := by
    rw [zero64_eq]; exact_mod_cast f64OfNat_exact (Nat.zero_le _)
  rw [bandLegal, Bool.and_eq_true]
  exact and_congr_right fun hb => by rw [fge, fle_iff hzero.1 hb, hzero.2]

theorem isFinite_one64 : isFinite Config.one64 = true := by decide

theorem f64Value_one64 : f64Value Config.one64 = 1 := by
  rw [one64_eq]; exact_mod_cast (f64OfNat_exact (n := 1) (by norm_num)).2

theorem isFinite_one_sub {b : F64} (hb : isFinite b = true) : isFinite (fsub Config.one64 b) = true := by
  refine ((fsub_roundedTo isFinite_one64 hb).1 ?_).1
  rw [f64Value_one64]
  exact (abs_sub _ _).trans_lt (by simpa using one_add_abs_lt_overflowBound hb)

theorem isFinite_one_add {b : F64} (hb : isFinite b = true) : isFinite (fadd Config.one64 b) = true := by
  refine ((fadd_roundedTo isFinite_one64 hb).1 ?_).1
  rw [f64Value_one64]
  exact (abs_add_le _ _).trans_lt (by simpa using one_add_abs_lt_overflowBound hb)

/-- A centre of 0 times a finite factor is a zero, of whichever sign. -/
theorem fmul_zero_center {x : F64} (hx : isFinite x = true) :
    isFinite (fmul (f64OfNat (0#8).toNat) x) = true ∧ f64Value (fmul (f64OfNat (0#8).toNat) x) = 0 := by
  have hround := fmul_roundedTo (isFinite_center 0#8) hx
  rw [f64Value_center, BitVec.toNat_ofNat, Nat.zero_mod, Nat.cast_zero, zero_mul] at hround
  have hnearest := hround.1 (by rw [abs_zero]; exact overflowBound_pos)
  exact ⟨hnearest.1, eq_of_roundsTo hnearest (isFinite_center 0#8) (f64Value_center 0#8)⟩

theorem f64Value_zero (neg : Bool) : f64Value (withSign neg 0) = 0 := by
  rw [f64Value_withSign neg (by norm_num), keyUnits_zero, Nat.cast_zero, zero_mul, mul_zero]

/-- The two zeros are the encodings of the value 0. -/
theorem eq_zero_iff (s : F64) :
    s = withSign false 0 ∨ s = withSign true 0 ↔ isFinite s = true ∧ f64Value s = 0 := by
  constructor
  · rintro (rfl | rfl) <;> exact ⟨by decide, f64Value_zero _⟩
  · rintro ⟨-, hs⟩
    have heq : s = withSign (isNeg s) 0 :=
      eq_of_isNeg_of_f64Value (isNeg_withSign _ (by norm_num)).symm (hs.trans (f64Value_zero _).symm)
    cases hsign : isNeg s <;> rw [hsign] at heq
    · exact .inl heq
    · exact .inr heq

/-- A centre of 0 has two zeros as its bounds. -/
theorem bitB_zero_center {b : F64} (hb : bandLegal b = true) (s : F64) :
    bitB b s 0#8 = true ↔ s = withSign false 0 ∨ s = withSign true 0 := by
  obtain ⟨hb, -⟩ := (bandLegal_iff b).1 hb
  obtain ⟨hlow, hlowValue⟩ := fmul_zero_center (isFinite_one_sub hb)
  obtain ⟨hhigh, hhighValue⟩ := fmul_zero_center (isFinite_one_add hb)
  rw [bitB, bandLower, bandUpper, between_iff hlow hhigh, hlowValue, hhighValue, ← le_antisymm_iff, eq_comm (a := 0),
    eq_zero_iff]

theorem fmul_center_one (cen : Byte) : fmul (f64OfNat cen.toNat) Config.one64 = f64OfNat cen.toNat := by
  have hcen := cen.isLt
  rw [one64_eq, fmul_f64OfNat (by omega) (by norm_num) (by omega), mul_one]

/-- With B = ±0 both bounds are the centre. -/
theorem bitB_of_factors_one {b : F64} (hsub : fsub Config.one64 b = Config.one64) (hadd : fadd Config.one64 b = Config.one64)
    (s : F64) (cen : Byte) : bitB b s cen = true ↔ isFinite s = true ∧ f64Value s = cen.toNat := by
  have hcen := isFinite_center cen
  rw [bitB, bandLower, bandUpper, hsub, hadd, fmul_center_one, between_iff hcen hcen, f64Value_center, ← le_antisymm_iff,
    eq_comm (a := (cen.toNat : ℚ))]

/-- A packed value is at most an infinity. -/
theorem isNaN_roundPack (neg : Bool) (m : ℕ) (e : ℤ) (sticky : Bool) : isNaN (roundPack neg m e sticky) = false := by
  have hpacked {k : ℕ} (hk : k ≤ infBits) : magKey (withSign neg k) ≤ infBits := by
    rwa [magKey_withSign _ (hk.trans_lt (by decide))]
  rw [Bool.eq_false_iff, ne_eq, isNaN_iff, not_lt, roundPack]
  split
  · exact hpacked (Nat.zero_le _)
  · refine hpacked ?_
    rw [← min_def]
    exact min_le_left _ _

theorem isNeg_fadd_of_neg {a b : F64} (ha : isFinite a = true) (hb : isFinite b = true)
    (hsum : f64Value a + f64Value b < 0) : isNeg (fadd a b) = true := by
  rw [f64Value_add] at hsum
  have hneg : alignedSum a b < 0 := by exact_mod_cast neg_of_mul_neg_left hsum (by positivity)
  rw [fadd_eq ha hb, if_neg hneg.ne, isNeg_roundPack, decide_eq_true hneg]

theorem fle_of_isNeg {a b : F64} (ha : isNaN a = false) (hb : isNaN b = false) (hneg : isNeg a = true)
    (hpos : isNeg b = false) : fle a b = true := by
  have hlow : f64Value a ≤ 0 := by
    rw [f64Value_eq, hneg, signFactor_true, neg_one_mul, ← abs_f64Value]; exact neg_nonpos.2 (abs_nonneg _)
  have hhigh : 0 ≤ f64Value b := by
    rw [f64Value_eq, hpos, signFactor_false, one_mul, ← abs_f64Value]; exact abs_nonneg _
  exact (fle_eq_true_iff a b).2 ⟨ha, hb, hlow.trans hhigh⟩

theorem isNaN_bandLower {b : F64} (hb : isFinite b = true) (cen : Byte) : isNaN (bandLower b cen) = false := by
  rw [bandLower, fmul_eq (isFinite_center cen) (isFinite_one_sub hb), isNaN_roundPack]

/-- With a finite B above 1 the factor 1 − B is negative, and so is the lower bound, be it a zero, a finite value or −∞. -/
theorem isNeg_bandLower {b : F64} (hb : isFinite b = true) (hone : 1 < f64Value b) (cen : Byte) :
    isNeg (bandLower b cen) = true := by
  have hfactor : isNeg (fsub Config.one64 b) = true :=
    isNeg_fadd_of_neg isFinite_one64 (by rwa [isFinite_fneg]) (by rw [f64Value_one64, f64Value_fneg]; linarith)
  rw [bandLower, isNeg_fmul (isFinite_center cen) (isFinite_one_sub hb), isNeg_f64OfNat, hfactor]
  rfl

/-- Settles O22: the bounds are the centre times finite factors, two zeros for a centre of 0, the centre for B = ±0, and not
positive for B above 1. -/
theorem bandRule : Obligations.BandRule := by
  refine ⟨fun _ _ _ => rfl, fun b s hb => bitB_zero_center hb s,
    fun s cen => ⟨bitB_of_factors_one (by decide) (by decide) s cen, bitB_of_factors_one (by decide) (by decide) s cen⟩,
    fun b s cen hs => ?nan, fun b cen hb hone => ?above⟩
  case nan => rw [bitB, fle_eq_false_of_isNaN (.inr hs), Bool.false_and]
  case above =>
    obtain ⟨hb, -⟩ := (bandLegal_iff b).1 hb
    have hone : 1 < f64Value b := by
      rwa [← Bool.not_eq_true, fle_iff hb isFinite_one64, f64Value_one64, not_le] at hone
    have hlow := isNeg_bandLower hb hone cen
    exact ⟨fun _ => hlow, fun s hs hpos => fle_of_isNeg (isNaN_bandLower hb cen) (isNaN_eq_false hs) hlow hpos⟩

/-! ### The commands -/

theorem ruleBit_eq (k : Rule) (b : F64) (cen : Byte) (s : F64) : ruleBit k b cen s = comparisonBit k b cen s := by
  cases k <;> rfl

theorem packBits_eq_codeSum (o : Order) (bits : List Bool) :
    packBits o bits = codeSum o bits.length (fun p => bits.getD p false) := by
  cases o
  · exact packM_eq_sum bits
  · exact packL_eq_sum bits

/-- A code depends on its first P bits. -/
theorem codeSum_congr {o : Order} {P : ℕ} {f g : ℕ → Bool} (h : ∀ p < P, f p = g p) : codeSum o P f = codeSum o P g := by
  cases o <;> exact Finset.sum_congr rfl fun p hp => by rw [h p (Finset.mem_range.1 hp)]

theorem encodeSamples_range (k : Rule) (o : Order) (b : F64) (cen : Byte) (P : ℕ) (samples : ℕ → F64) :
    encodeSamples k o b cen ((List.range P).map samples) = codeSum o P (fun p => comparisonBit k b cen (samples p)) := by
  rw [encodeSamples, packBits_eq_codeSum, List.length_map, List.length_map, List.length_range]
  refine codeSum_congr fun p hp => ?_
  simp [hp, ruleBit_eq]

theorem planOf_encode {i : Instr} {k : Rule} {o : Order} (h : (i, k, o) ∈ encodeForms) :
    (planOf i).work = .component (encodeWork k o) := by
  fin_cases h <;> rfl

theorem encodeWork_eq (k : Rule) (o : Order) (s : State) :
    encodeWork k o s = .ok { result := some (BitVec.ofNat 64
      (codeSum o s.cfgP (fun p => comparisonBit k s.band s.argVal (s.sreg p)))) } := by
  rw [encodeWork, encodeSamples_range]

/-- Settles O13: an accepted ENCODE runs its work, whose packing is the sum of the comparison bits. -/
theorem encodeCommandResult : Obligations.EncodeCommandResult := by
  intro i k o s hform hissued haccepts
  rw [Laws.exec_eq_runPlan]
  exact Laws.runPlan_component_ok _ s _ _ hissued ((Laws.accepts_iff i s).1 haccepts) (planOf_encode hform)
    (encodeWork_eq k o (Laws.executing s))

theorem ofNat_toNat_bool (b : Bool) : BitVec.ofNat 64 b.toNat = if b = true then 1#64 else 0#64 := by
  cases b <;> rfl

theorem bandcmpWork_eq (s : State) : bandcmpWork s =
    .ok { result := some (if comparisonBit .band s.band s.argVal (s.sreg s.argSidx1) = true then 1#64 else 0#64) } := by
  rw [bandcmpWork, ofNat_toNat_bool]
  rfl

/-- Settles O14: an accepted BANDCMP runs its work, which is one band bit. -/
theorem bandcmpResult : Obligations.BandcmpResult := by
  intro s hissued haccepts
  rw [Laws.exec_eq_runPlan]
  exact Laws.runPlan_component_ok _ s _ _ hissued ((Laws.accepts_iff .bandcmp s).1 haccepts) rfl
    (bandcmpWork_eq (Laws.executing s))

end Sys2Proof.Proofs
end

section
/-!
PROOFS. The run of a whole-image command: a pass visits the interior in row-major order and writes one cell at each place,
whatever the pass is (43_pipeline.md R230 to R234, R242, R247).
-/
namespace Sys2Proof.Proofs

open Sys2Proof Sys2Proof.Machine

/-! ### Runs as iterated core steps -/

/-- The bound of a run does not matter past its end, since a core step leaves an idle CORE alone. -/
theorem runSteps_eq_iterate (k : Plan) (n : Nat) (s : State) : runSteps k n s = (coreStep k)^[n] s := by
  induction n generalizing s with
  | zero => rfl
  | succ n ih =>
    by_cases phase : s.flight.phase = .idle
    · have hfixed : Function.IsFixedPt (coreStep k) s := by simp [Function.IsFixedPt, coreStep, phase]
      rw [Laws.runSteps_idle _ _ _ phase, (hfixed.iterate (n + 1)).eq]
    · rw [Laws.runSteps_succ _ _ _ phase, ih, Function.iterate_succ_apply]

/-- The plan takes `s` to `t` in `n` core steps. -/
def Leads (k : Plan) (n : Nat) (s t : State) : Prop := (coreStep k)^[n] s = t

theorem leads_one {k : Plan} {s t : State} (h : coreStep k s = t) : Leads k 1 s t := h

theorem Leads.trans {k : Plan} {m n : Nat} {s t u : State} (h : Leads k m s t) (h' : Leads k n t u) :
    Leads k (m + n) s u := by
  unfold Leads at *
  rw [Nat.add_comm, Function.iterate_add_apply, h, h']

/-- A run that completes within the bound ends there. -/
theorem Leads.exec {i : Instr} {n : Nat} {s t : State} (h : Leads (planOf i) n s t) (idle : t.flight.phase = .idle)
    (hn : n ≤ s.stepBound) : exec i s = .next t := by
  rw [Laws.exec_eq_runPlan, runPlan, ← Nat.add_sub_of_le hn, Nat.add_comm, runSteps_eq_iterate,
    Function.iterate_add_apply, h, ← runSteps_eq_iterate, Laws.runSteps_idle _ _ _ idle]

theorem leads_complete {k : Plan} {s : State} (phase : s.flight.phase = .complete) : Leads k 1 s s.complete :=
  leads_one (by simp [coreStep, phase])

/-! ### Row-major order -/

theorem rowMajor_lt_iff {w r c r' c' : Nat} (hc : c < w) (hc' : c' < w) :
    r * w + c < r' * w + c' ↔ r < r' ∨ (r = r' ∧ c < c') := by
  have hlater {a b d e : Nat} (hb : b < w) (h : a < d) : a * w + b < d * w + e :=
    calc a * w + b < (a + 1) * w := by rw [Nat.add_mul]; omega
      _ ≤ d * w := Nat.mul_le_mul_right w h
      _ ≤ d * w + e := Nat.le_add_right _ _
  rcases Nat.lt_trichotomy r r' with h | rfl | h
  · simp [hlater hc h, h]
  · simp
  · have := hlater (e := c) hc' h
    constructor <;> omega

/-- In row-major order every place has its own number. -/
theorem rowMajor_injective {w r c r' c' : Nat} (hc : c < w) (hc' : c' < w) (h : r * w + c = r' * w + c') :
    r = r' ∧ c = c' := by
  have hnot := (rowMajor_lt_iff (r := r) (r' := r') hc hc').not.1 (by omega)
  have hnot' := (rowMajor_lt_iff (r := r') (r' := r) hc' hc).not.1 (by omega)
  omega

theorem cellOffset_injective {s : State} {r c r' c' : Nat} (hc : c < s.width) (hc' : c' < s.width)
    (h : s.cellOffset r c = s.cellOffset r' c') : r = r' ∧ c = c' :=
  rowMajor_injective hc hc' h

theorem col_lt_of_interior {s : State} {r c : Nat} (h : s.inInterior r c = true) : c < s.width := by
  rw [inInterior_iff] at h
  omega

/-- The index of an interior pixel is its number in row-major order. -/
theorem placeIndex_lt_iff {s : State} {r c r' c' : Nat} (h : s.inInterior r c = true) (h' : s.inInterior r' c' = true) :
    s.placeIndex r c < s.placeIndex r' c' ↔ earlierPixel r c r' c' := by
  rw [inInterior_iff] at h h'
  rw [State.placeIndex, State.placeIndex, rowMajor_lt_iff (by omega) (by omega), earlierPixel]
  omega

theorem placeIndex_injective {s : State} {r c r' c' : Nat} (h : s.inInterior r c = true) (h' : s.inInterior r' c' = true)
    (heq : s.placeIndex r c = s.placeIndex r' c') : r = r' ∧ c = c' := by
  rw [inInterior_iff] at h h'
  have hpair := rowMajor_injective (w := s.width - 2 * s.cfgR) (by omega) (by omega) heq
  omega

/-! ### The pixel steps of a pass -/

/-- `u` is `s` but for what the pixel steps of a pass write: DESC, PROGRESS and the cursor. -/
def SameButScan (s u : State) : Prop :=
  ∃ desc progress row col, u = { s with desc, progress, flight := { s.flight with row, col } }

/-- A pass gives each cell a byte that does not depend on the other cells. -/
def Local (f : Pass) : Prop :=
  ∀ s u r c, SameButScan s u → u.descAt r c = s.descAt r c → f u r c = f s r c

/-- `u` is `s` after a pass has done the first `n` interior pixels in row-major order. -/
structure Scanned (f : Pass) (s : State) (n : Nat) (u : State) : Prop where
  frame : SameButScan s u
  place : s.placeOk u.flight.row u.flight.col = true
  index : s.placeIndex u.flight.row u.flight.col = n
  count : u.progress = s.progress + BitVec.ofNat 64 n
  done : ∀ r c, s.inInterior r c = true → s.placeIndex r c < n → f s r c = .ok (u.descAt r c)
  rest : ∀ a, (∀ r c, s.inInterior r c = true → s.placeIndex r c < n → a ≠ s.cellOffset r c) →
    u.descByte a = s.descByte a

/-- The cursor is on the first interior pixel. -/
def AtStart (s : State) : Prop := s.flight.row = s.cfgR ∧ s.flight.col = s.cfgR

theorem scanned_zero (f : Pass) {s : State} (h : AtStart s) : Scanned f s 0 s := by
  obtain ⟨hrow, hcol⟩ := h
  exact {
    frame := ⟨_, _, _, _, rfl⟩
    place := by rw [hrow, hcol, placeOk_start]
    index := by rw [hrow, hcol, placeIndex_start]
    count := by simp
    done := fun r c _ h => absurd h (Nat.not_lt_zero _)
    rest := fun _ _ => rfl }

section
variable {f : Pass} {s u : State} {n : Nat}

theorem SameButScan.interior_eq (h : SameButScan s u) (r c : Nat) : u.inInterior r c = s.inInterior r c := by
  obtain ⟨_, _, _, _, rfl⟩ := h; rfl

theorem SameButScan.interiorCount_eq (h : SameButScan s u) : u.interiorCount = s.interiorCount := by
  obtain ⟨_, _, _, _, rfl⟩ := h; rfl

theorem SameButScan.phase_eq (h : SameButScan s u) : u.flight.phase = s.flight.phase := by
  obtain ⟨_, _, _, _, rfl⟩ := h; rfl

theorem SameButScan.cellOffset_eq (h : SameButScan s u) (r c : Nat) : u.cellOffset r c = s.cellOffset r c := by
  obtain ⟨_, _, _, _, rfl⟩ := h; rfl

theorem SameButScan.nextPlace_eq (h : SameButScan s u) (r c : Nat) : u.nextPlace r c = s.nextPlace r c := by
  obtain ⟨_, _, _, _, rfl⟩ := h; rfl

theorem SameButScan.pixel (h : SameButScan s u) (r c : Nat) (v : Byte) : SameButScan s (u.setDescAt r c v).advance := by
  obtain ⟨_, _, _, _, rfl⟩ := h; exact ⟨_, _, _, _, rfl⟩

/-- Until all are done the cursor is on an interior pixel. -/
theorem Scanned.cursor_interior (h : Scanned f s n u) (hn : n < s.interiorCount) :
    s.inInterior u.flight.row u.flight.col = true := by
  by_contra hout
  have hend := placeIndex_of_done h.place (eq_false_of_ne_true hout)
  rw [h.index] at hend
  omega

/-- The cells still to do hold what they held. -/
theorem Scanned.descAt_undone (h : Scanned f s n u) {r c : Nat} (hcol : c < s.width)
    (hundone : ¬ (s.inInterior r c = true ∧ s.placeIndex r c < n)) : u.descAt r c = s.descAt r c := by
  rw [State.descAt, h.frame.cellOffset_eq, State.descAt]
  refine h.rest _ fun r' c' hin hlt heq => hundone ?_
  obtain ⟨rfl, rfl⟩ := cellOffset_injective hcol (col_lt_of_interior hin) heq
  exact ⟨hin, hlt⟩

/-- The pass gives the cell at the cursor what it gave it at the start. -/
theorem Scanned.pass_cursor (h : Scanned f s n u) (hlocal : Local f) (hn : n < s.interiorCount) :
    f u u.flight.row u.flight.col = f s u.flight.row u.flight.col := by
  refine hlocal _ _ _ _ h.frame (h.descAt_undone (col_lt_of_interior (h.cursor_interior hn)) ?_)
  rintro ⟨-, hlt⟩
  rw [h.index] at hlt
  omega

/-- The pixels done after one more step are those before it and the one at the cursor. -/
theorem Scanned.done_succ (h : Scanned f s n u) (hn : n < s.interiorCount) {r c : Nat} (hin : s.inInterior r c = true)
    (hlt : s.placeIndex r c < n + 1) : s.placeIndex r c < n ∨ (r = u.flight.row ∧ c = u.flight.col) := by
  rcases Nat.lt_succ_iff_lt_or_eq.1 hlt with hlt | heq
  · exact .inl hlt
  · exact .inr (placeIndex_injective hin (h.cursor_interior hn) (heq.trans h.index.symm))

/-- A pixel step does one more pixel. -/
theorem Scanned.succ (h : Scanned f s n u) (hn : n < s.interiorCount) {v : Byte}
    (hv : f s u.flight.row u.flight.col = .ok v) :
    Scanned f s (n + 1) (u.setDescAt u.flight.row u.flight.col v).advance := by
  have hin := h.cursor_interior hn
  constructor
  case frame => exact h.frame.pixel _ _ v
  case place =>
    show s.placeOk (u.nextPlace u.flight.row u.flight.col).1 (u.nextPlace u.flight.row u.flight.col).2 = true
    rw [h.frame.nextPlace_eq]
    exact placeOk_nextPlace hin
  case index =>
    show s.placeIndex (u.nextPlace u.flight.row u.flight.col).1 (u.nextPlace u.flight.row u.flight.col).2 = n + 1
    rw [h.frame.nextPlace_eq, placeIndex_nextPlace hin, h.index]
  case count =>
    show u.progress + 1#64 = _
    rw [h.count, BitVec.add_assoc, BitVec.ofNat_add]
  case done =>
    intro r c hin' hlt
    show _ = Except.ok ((u.setDescAt u.flight.row u.flight.col v).descByte (u.cellOffset r c))
    by_cases hsame : r = u.flight.row ∧ c = u.flight.col
    · obtain ⟨rfl, rfl⟩ := hsame
      rw [Laws.setDescAt_descByte_same, hv]
    · rw [Laws.setDescAt_descByte_other]
      · exact h.done r c hin' ((h.done_succ hn hin' hlt).resolve_right hsame)
      · rw [h.frame.cellOffset_eq, h.frame.cellOffset_eq]
        exact fun heq => hsame (cellOffset_injective (col_lt_of_interior hin') (col_lt_of_interior hin) heq)
  case rest =>
    intro a ha
    show (u.setDescAt u.flight.row u.flight.col v).descByte a = _
    rw [Laws.setDescAt_descByte_other]
    · exact h.rest a fun r c hin' hlt => ha r c hin' (by omega)
    · rw [h.frame.cellOffset_eq]
      exact ha _ _ hin (by rw [h.index]; omega)

/-- The core steps of the plan `k` in the phase of `s` are pixel steps of the pass `f`, while the cursor is in the interior. -/
def RunsPass (k : Plan) (f : Pass) (s : State) : Prop :=
  ∀ u, u.flight.phase = s.flight.phase → u.inInterior u.flight.row u.flight.col = true → coreStep k u = pixelStep f u

theorem Scanned.coreStep_eq {k : Plan} (h : Scanned f s n u) (hrun : RunsPass k f s) (hn : n < s.interiorCount) :
    coreStep k u = pixelStep f u :=
  hrun u h.frame.phase_eq (by rw [h.frame.interior_eq]; exact h.cursor_interior hn)

/-- As long as the pass has a byte for each pixel, every core step does one. -/
theorem exists_scanned {k : Plan} (hlocal : Local f) (hrun : RunsPass k f s) (hstart : AtStart s)
    (hn : n ≤ s.interiorCount)
    (hok : ∀ r c, s.inInterior r c = true → s.placeIndex r c < n → ∃ v, f s r c = .ok v) :
    ∃ u, Leads k n s u ∧ Scanned f s n u := by
  induction n with
  | zero => exact ⟨s, rfl, scanned_zero f hstart⟩
  | succ n ih =>
    obtain ⟨u, hleads, hu⟩ := ih (by omega) fun r c hin hlt => hok r c hin (by omega)
    obtain ⟨v, hv⟩ := hok _ _ (hu.cursor_interior hn) (by rw [hu.index]; omega)
    refine ⟨_, hleads.trans (leads_one ?_), hu.succ hn hv⟩
    rw [hu.coreStep_eq hrun hn, pixelStep, hu.pass_cursor hlocal hn, hv]

/-- At the first pixel without a byte the pass ends with EBOUNDS (43_pipeline.md R247). -/
theorem exists_scanned_error {k : Plan} (hlocal : Local f) (hrun : RunsPass k f s) (hstart : AtStart s)
    {r₀ c₀ : Nat} {o : OutOfBounds} (hin : s.inInterior r₀ c₀ = true) (herror : f s r₀ c₀ = .error o)
    (hok : ∀ r c, s.inInterior r c = true → s.placeIndex r c < s.placeIndex r₀ c₀ → ∃ v, f s r c = .ok v) :
    ∃ u, Leads k (s.placeIndex r₀ c₀ + 1) s (u.raiseBounds o) ∧ Scanned f s (s.placeIndex r₀ c₀) u := by
  have hn := placeIndex_lt hin
  obtain ⟨u, hleads, hu⟩ := exists_scanned hlocal hrun hstart hn.le hok
  refine ⟨u, hleads.trans (leads_one ?_), hu⟩
  obtain ⟨hrow, hcol⟩ := placeIndex_injective (hu.cursor_interior hn) hin hu.index
  rw [hu.coreStep_eq hrun hn, pixelStep, hu.pass_cursor hlocal hn, hrow, hcol, herror]

/-- After the last pixel the cursor has left the interior. -/
theorem Scanned.cursor_outside (h : Scanned f s s.interiorCount u) : u.inInterior u.flight.row u.flight.col = false := by
  rw [h.frame.interior_eq, ← Bool.not_eq_true]
  intro hin
  have hlt := placeIndex_lt hin
  rw [h.index] at hlt
  omega

theorem Scanned.done_all (h : Scanned f s s.interiorCount u) {r c : Nat} (hin : s.inInterior r c = true) :
    f s r c = .ok (u.descAt r c) :=
  h.done r c hin (placeIndex_lt hin)

end

/-! ### The stages of a whole-image command -/

/-- A whole-image command at the start of its first pass: its checks passed, its zero-fill done if it has one. -/
def scanStart (zeroFill : Bool) (s : State) : State :=
  { s with desc := if zeroFill then s.desc.zeroFill (s.height * s.width) else s.desc,
           flight := { phase := .pass1, row := s.cfgR, col := s.cfgR } }

theorem scanStart_atStart (z : Bool) (s : State) : AtStart (scanStart z s) := ⟨rfl, rfl⟩

theorem startSecond_atStart (s : State) : AtStart s.startSecond := ⟨rfl, rfl⟩

theorem leads_scanStart {k : Plan} {z : Bool} {f : Pass} {g : Option Pass} {s : State} (hw : k.work = .image z f g)
    (hs : s.issued) (hcheck : checkCode k s = none) : ∃ n ≤ 2, Leads k n s (scanStart z s) := by
  have hstart := Laws.coreStep_check_ok k s hs hcheck
  cases z with
  | false => exact ⟨1, by omega, leads_one (by rw [hstart, hw]; rfl)⟩
  | true =>
    refine ⟨2, le_rfl, (leads_one hstart).trans (leads_one ?_)⟩
    rw [hw]
    simp only [State.startWork, coreStep, hw]
    rfl

theorem runsPass_first {k : Plan} {z : Bool} {f : Pass} {g : Option Pass} {s : State} (hw : k.work = .image z f g)
    (phase : s.flight.phase = .pass1) : RunsPass k f s := by
  intro u hphase hin
  simp [coreStep, hphase.trans phase, hw, firstPassStep, hin]

theorem runsPass_second {k : Plan} {z : Bool} {f g : Pass} {s : State} (hw : k.work = .image z f (some g))
    (phase : s.flight.phase = .pass2) : RunsPass k g s := by
  intro u hphase hin
  simp [coreStep, hphase.trans phase, hw, secondPassStep, hin]

/-- Two passes over the image and the stages around them stay below the bound. -/
theorem interiorCount_stepBound (s : State) : 2 * s.interiorCount + 6 ≤ s.stepBound := by
  have hle := interiorCount_le s
  have hmul : (s.height + 1) * (s.width + 1) = s.height * s.width + s.height + s.width + 1 := by ring
  rw [State.stepBound, hmul]
  omega

section
variable {i : Instr} {z : Bool} {f g : Pass} {s : State}

/-- The first pass of a command whose pass has a byte for every pixel. -/
theorem exists_firstPass {p : Option Pass} (hw : (planOf i).work = .image z f p) (hlocal : Local f) (hs : s.issued)
    (hcheck : checkCode (planOf i) s = none) (hok : ∀ r c, s.inInterior r c = true → ∃ v, f (scanStart z s) r c = .ok v) :
    ∃ u, ∃ n ≤ s.interiorCount + 2, Leads (planOf i) n s u ∧ Scanned f (scanStart z s) s.interiorCount u := by
  obtain ⟨n, hn, hstart⟩ := leads_scanStart hw hs hcheck
  obtain ⟨u, hpass, hu⟩ := exists_scanned (n := s.interiorCount) hlocal (runsPass_first hw rfl) (scanStart_atStart z s) le_rfl
    fun r c hin _ => hok r c hin
  exact ⟨u, n + s.interiorCount, by omega, hstart.trans hpass, hu⟩

/-- A command of one pass whose pass has a byte for every pixel completes with code 0. -/
theorem exec_onePass (hw : (planOf i).work = .image z f none) (hlocal : Local f) (hs : s.issued)
    (hcheck : checkCode (planOf i) s = none) (hok : ∀ r c, s.inInterior r c = true → ∃ v, f (scanStart z s) r c = .ok v) :
    ∃ u, Scanned f (scanStart z s) s.interiorCount u ∧ exec i s = .next (u.finish {}).complete := by
  obtain ⟨u, n, hn, hpass, hu⟩ := exists_firstPass hw hlocal hs hcheck hok
  have hbound := interiorCount_stepBound s
  have hend : coreStep (planOf i) u = u.finish {} := by
    simp [coreStep, hu.frame.phase_eq, scanStart, hw, firstPassStep, hu.cursor_outside]
  exact ⟨u, hu, ((hpass.trans (leads_one hend)).trans (leads_complete rfl)).exec rfl (by omega)⟩

/-- A command of two passes, likewise: the second starts from what the first has left. -/
theorem exec_twoPasses (hw : (planOf i).work = .image z f (some g)) (hf : Local f) (hg : Local g) (hs : s.issued)
    (hcheck : checkCode (planOf i) s = none) (hok : ∀ r c, s.inInterior r c = true → ∃ v, f (scanStart z s) r c = .ok v)
    (hok' : ∀ u r c, ∃ v, g u r c = .ok v) :
    ∃ u w, Scanned f (scanStart z s) s.interiorCount u ∧ Scanned g u.startSecond s.interiorCount w ∧
      exec i s = .next (w.finish {}).complete := by
  obtain ⟨u, n, hn, hpass, hu⟩ := exists_firstPass hw hf hs hcheck hok
  have hbound := interiorCount_stepBound s
  have hcount : u.interiorCount = s.interiorCount := hu.frame.interiorCount_eq
  have hsecond : coreStep (planOf i) u = u.startSecond := by
    simp [coreStep, hu.frame.phase_eq, scanStart, hw, firstPassStep, hu.cursor_outside]
  obtain ⟨w, hpass', hw'⟩ := exists_scanned (s := u.startSecond) (n := s.interiorCount) hg (runsPass_second hw rfl)
    (startSecond_atStart u) hcount.ge fun r c _ _ => hok' _ r c
  have hend : coreStep (planOf i) w = w.finish {} := by
    have hout := Scanned.cursor_outside (s := u.startSecond) (hcount ▸ hw')
    simp [coreStep, hw'.frame.phase_eq, hw, secondPassStep, hout]
  exact ⟨u, w, hu, hw',
    ((((hpass.trans (leads_one hsecond)).trans hpass').trans (leads_one hend)).trans (leads_complete rfl)).exec rfl (by omega)⟩

/-- A command whose first pass has no byte for some pixel ends at the first such pixel (43_pipeline.md R247). -/
theorem exec_boundsError {p : Option Pass} (hw : (planOf i).work = .image z f p) (hlocal : Local f) (hs : s.issued)
    (hcheck : checkCode (planOf i) s = none) {r₀ c₀ : Nat} {o : OutOfBounds} (hin : s.inInterior r₀ c₀ = true)
    (herror : f (scanStart z s) r₀ c₀ = .error o)
    (hok : ∀ r c, s.inInterior r c = true → earlierPixel r c r₀ c₀ → ∃ v, f (scanStart z s) r c = .ok v) :
    ∃ u, Scanned f (scanStart z s) (s.placeIndex r₀ c₀) u ∧ exec i s = .next (u.raiseBounds o).complete := by
  obtain ⟨n, hn, hstart⟩ := leads_scanStart hw hs hcheck
  obtain ⟨u, hpass, hu⟩ := exists_scanned_error (s := scanStart z s) hlocal (runsPass_first hw rfl) (scanStart_atStart z s)
    hin herror fun r c hin' hlt => hok r c hin' ((placeIndex_lt_iff hin' hin).1 hlt)
  have hbound := interiorCount_stepBound s
  have hlt : (scanStart z s).placeIndex r₀ c₀ < s.interiorCount := placeIndex_lt hin
  exact ⟨u, hu, ((hstart.trans hpass).trans (leads_complete rfl)).exec rfl (by omega)⟩

end

end Sys2Proof.Proofs
end

section
/-!
PROOFS. The descriptor of a pixel (43_pipeline.md R235): its samples in order, its code by the rules of the units, what it
depends on; and the PIXEL commands (R241): O17, O19.
-/
namespace Sys2Proof.Proofs

open Sys2Proof Sys2Proof.Machine

/-! ### The samples of a pixel -/

theorem sampleList_eq_ok_iff (s : State) (m : Mode) (r c : Nat) (l : List Nat) (vs : List F64) :
    sampleList s m r c l = .ok vs ↔ List.Forall₂ (fun p v => sample s m r c p = .ok v) l vs := by
  refine ⟨Laws.sampleList_ok s m r c l vs, fun h => ?_⟩
  induction h with
  | nil => rfl
  | cons hv _ ih =>
    rw [sampleList, hv, ih]
    rfl

theorem sampleList_range_eq_ok_iff (s : State) (m : Mode) (r c P : Nat) (vs : List F64) :
    sampleList s m r c (List.range P) = .ok vs ↔
      vs.length = P ∧ ∀ p < P, sample s m r c p = .ok (vs.getD p 0#64) := by
  rw [sampleList_eq_ok_iff, List.forall₂_iff_get]
  constructor
  · rintro ⟨hlength, h⟩
    rw [List.length_range] at hlength
    refine ⟨hlength.symm, fun p hp => ?_⟩
    simpa [← hlength, hp] using h p (by simpa using hp) (by omega)
  · rintro ⟨rfl, h⟩
    exact ⟨List.length_range, fun p _ hp => by simpa [hp] using h p hp⟩

/-- The first sample out of bounds is what a list of samples fails with (60_exceptions.md R326). -/
theorem sampleList_range_eq_error_iff (s : State) (m : Mode) (r c P : Nat) (o : OutOfBounds) :
    sampleList s m r c (List.range P) = .error o ↔
      ∃ p < P, sample s m r c p = .error o ∧ ∀ q < p, ∃ x, sample s m r c q = .ok x := by
  have hfirst {e : OutOfBounds} (h : sampleList s m r c (List.range P) = .error e) :
      ∃ p < P, sample s m r c p = .error e ∧ ∀ q < p, ∃ x, sample s m r c q = .ok x := by
    obtain ⟨pre, p, post, hsplit, herror, hpre⟩ := Laws.sampleList_error s m r c _ e h
    have hp : (List.range P)[pre.length]? = some p := by simp [hsplit]
    obtain ⟨hlt, rfl⟩ : pre.length < P ∧ pre.length = p := by simpa [List.getElem?_eq_some_iff] using hp
    refine ⟨_, hlt, herror, fun q hq => hpre q (List.mem_of_getElem? (i := q) ?_)⟩
    rw [← List.getElem?_append_left (l₂ := pre.length :: post) hq, ← hsplit, List.getElem?_range (by omega)]
  refine ⟨hfirst, fun ⟨p, hp, herror, hbefore⟩ => ?_⟩
  cases hlist : sampleList s m r c (List.range P) with
  | ok vs =>
    have hok := ((sampleList_range_eq_ok_iff s m r c P vs).1 hlist).2 p hp
    cases herror.symm.trans hok
  | error e =>
    obtain ⟨q, -, herror', hbefore'⟩ := hfirst hlist
    rcases Nat.lt_trichotomy p q with hlt | rfl | hlt
    · obtain ⟨x, hx⟩ := hbefore' p hlt
      cases herror.symm.trans hx
    · cases herror.symm.trans herror'
      rfl
    · obtain ⟨x, hx⟩ := hbefore q hlt
      cases herror'.symm.trans hx

theorem sampleList_congr {s t : State} {m : Mode} {r c : Nat} (h : ∀ p, sample t m r c p = sample s m r c p) (l : List Nat) :
    sampleList t m r c l = sampleList s m r c l := by
  induction l with
  | nil => rfl
  | cons p rest ih => rw [sampleList, sampleList, h, ih]

/-! ### Rotations and uniformity -/

theorem ofNat_mul_two_pow_add (a : Nat) {b n : Nat} (hb : b < 2 ^ n) :
    BitVec.ofNat 8 (a * 2 ^ n + b) = BitVec.ofNat 8 a <<< n ||| BitVec.ofNat 8 b := by
  rw [← Nat.shiftLeft_eq, Nat.shiftLeft_add_eq_or_of_lt hb, BitVec.ofNat_or]
  congr 1
  apply BitVec.eq_of_toNat_eq
  simp [Nat.shiftLeft_eq]

/-- A rotation to the left moves the high bits to the free low places (00_scope.md R13). -/
theorem rotl8_eq_rotationOf (v : Byte) {k : Nat} (hk : k < 8) : rotl8 v k = Machine.rotationOf v k := by
  have hhigh : v.toNat / 2 ^ (8 - k) < 2 ^ k := by
    rw [Nat.div_lt_iff_lt_mul (by positivity), ← pow_add, Nat.add_sub_of_le hk.le]
    exact v.isLt
  have hshift : BitVec.ofNat 8 (v.toNat / 2 ^ (8 - k)) = v >>> (8 - k) := by
    apply BitVec.eq_of_toNat_eq
    rw [BitVec.toNat_ushiftRight, Nat.shiftRight_eq_div_pow, BitVec.toNat_ofNat,
      Nat.mod_eq_of_lt ((Nat.div_le_self _ _).trans_lt v.isLt)]
  rw [Machine.rotationOf, ofNat_mul_two_pow_add _ hhigh, hshift, BitVec.ofNat_toNat, BitVec.setWidth_eq, rotl8]
  split
  · next hzero =>
    subst hzero
    simp [BitVec.ushiftRight_eq_zero]
  · rfl

theorem minByte_le (a b : Byte) : minByte a b ≤ a ∧ minByte a b ≤ b := by
  unfold minByte
  split <;> bv_omega

theorem minByte_cases (a b : Byte) : minByte a b = a ∨ minByte a b = b := by
  unfold minByte
  split <;> simp

theorem minRotation_le (v : Byte) {j k : Nat} (h : j ≤ k) : minRotation v k ≤ rotl8 v j := by
  induction k with
  | zero =>
    obtain rfl : j = 0 := by omega
    exact BitVec.le_refl _
  | succ k ih =>
    obtain ⟨hprev, hlast⟩ := minByte_le (minRotation v k) (rotl8 v (k + 1))
    rcases Nat.le_succ_iff.1 h with h | rfl
    · exact BitVec.le_trans hprev (ih h)
    · exact hlast

theorem exists_minRotation_eq (v : Byte) (k : Nat) : ∃ j ≤ k, minRotation v k = rotl8 v j := by
  induction k with
  | zero => exact ⟨0, le_rfl, rfl⟩
  | succ k ih =>
    obtain ⟨j, hj, heq⟩ := ih
    rcases minByte_cases (minRotation v k) (rotl8 v (k + 1)) with h | h
    · exact ⟨j, by omega, h.trans heq⟩
    · exact ⟨k + 1, le_rfl, h⟩

/-- Rotation by 0 places is among those tried. -/
theorem rimin8_le (v : Byte) (P : Nat) : rimin8 v P ≤ v := minRotation_le v (Nat.zero_le _)

theorem leastRotation_rimin8 (v : Byte) {P : Nat} (hpos : 1 ≤ P) (hP : P ≤ 8) : LeastRotation (rimin8 v P) v P := by
  constructor
  · obtain ⟨j, hj, heq⟩ := exists_minRotation_eq v (P - 1)
    exact ⟨j, by omega, by rw [← rotl8_eq_rotationOf v (by omega)]; exact heq⟩
  · intro k hk
    rw [← rotl8_eq_rotationOf v (by omega)]
    exact minRotation_le v (by omega)

/-- RIMIN8 is the least rotation, and there is only one (44_rotation.md R280). -/
theorem leastRotation_iff (r v : Byte) {P : Nat} (hpos : 1 ≤ P) (hP : P ≤ 8) :
    LeastRotation r v P ↔ r = rimin8 v P := by
  refine ⟨fun ⟨⟨k, hk, hr⟩, hleast⟩ => ?_, fun h => h ▸ leastRotation_rimin8 v hpos hP⟩
  obtain ⟨⟨j, hj, hmin⟩, hleast'⟩ := leastRotation_rimin8 v hpos hP
  refine BitVec.le_antisymm ?_ ?_
  · exact hmin ▸ hleast j hj
  · exact hr ▸ hleast' k hk

theorem toNat_xor_eq (a b : Bool) : (a ^^ b).toNat = if a ≠ b then 1 else 0 := by cases a <;> cases b <;> rfl

theorem tr8_eq_transitions (v : Byte) : tr8 v = transitions v := by
  simp only [tr8, transitions, Finset.card_filter, toNat_xor_eq, Finset.sum_range]
  rfl

theorem ucls8_eq_uniformClass (v : Byte) (P : Nat) : ucls8 v P = uniformClass v P := by
  rw [ucls8, uniformClass, tr8_eq_transitions]

/-! ### The code of a pixel -/

theorem variantMode_eq_modeOf (v : Variant) (m : Mode) : variantMode v m = modeOf v m := by cases v <;> rfl

theorem postStep_iff (v : Variant) {P : Nat} (hpos : 1 ≤ P) (hP : P ≤ 8) (before code : Byte) :
    PostStep v P before code ↔ code = variantPost v P before := by
  cases v with
  | lbp | albp => exact Iff.rfl
  | rilbp => exact leastRotation_iff code before hpos hP
  | ulbp => rw [variantPost, ucls8_eq_uniformClass]; exact Iff.rfl

theorem encodeSamples_eq_variantSum (v : Variant) (b : F64) (cen : Byte) (samples : List F64) :
    encodeSamples (variantRule v) (variantOrder v) b cen samples =
      variantSum v samples.length b cen (fun p => samples.getD p 0#64) := by
  have hsamples : (List.range samples.length).map (fun p => samples.getD p 0#64) = samples :=
    List.ext_getElem (by simp) fun p _ hp => by simp [hp]
  conv_lhs => rw [← hsamples, encodeSamples_range]
  cases v <;> rfl

theorem describe_eq_ok_iff (v : Variant) (m : Mode) (s : State) (r c : Nat) (code : Byte) (samples : List F64) :
    describe v m s r c = .ok (code, samples) ↔
      s.inImage r c = true ∧ sampleList s (variantMode v m) r c (List.range s.cfgP) = .ok samples ∧
        code = pixelCode v s.cfgP s.band (s.imgAt r c) samples := by
  rcases Laws.describe_cases v m s r c with ⟨hin, vs, hvs, h⟩ | ⟨hin, o, ho, h⟩ | ⟨hin, h⟩
  · simp only [h, hin, hvs, Except.ok.injEq, Prod.mk.injEq, true_and]
    constructor
    · rintro ⟨rfl, rfl⟩; exact ⟨rfl, rfl⟩
    · rintro ⟨rfl, rfl⟩; exact ⟨rfl, rfl⟩
  · simp [h, ho]
  · simp [h, hin]

theorem isDescriptor_iff (v : Variant) (m : Mode) {s : State} (hpos : 1 ≤ s.cfgP) (hP : s.cfgP ≤ 8) (r c : Nat) (code : Byte)
    (samples : List F64) :
    IsDescriptor v m s r c code samples ↔ describe v m s r c = .ok (code, samples) := by
  rw [describe_eq_ok_iff, sampleList_range_eq_ok_iff, IsDescriptor, postStep_iff v hpos hP, variantMode_eq_modeOf, and_assoc]
  refine and_congr_right fun _ => and_congr_right fun hlength => and_congr_right fun _ => ?_
  rw [pixelCode, encodeSamples_eq_variantSum, hlength]

theorem describe_eq_error_iff (v : Variant) (m : Mode) (s : State) (r c : Nat) (o : OutOfBounds) :
    describe v m s r c = .error o ↔
      (s.inImage r c = false ∧ o = ⟨r, c, 0xFF⟩) ∨
        (s.inImage r c = true ∧ sampleList s (variantMode v m) r c (List.range s.cfgP) = .error o) := by
  rcases Laws.describe_cases v m s r c with ⟨hin, vs, hvs, h⟩ | ⟨hin, e, he, h⟩ | ⟨hin, h⟩
  · simp [h, hin, hvs]
  · simp [h, hin, he]
  · simp [h, hin, eq_comm]

/-- A descriptor depends on the configuration, IMG and the trig parameter only. -/
theorem describe_congr {s t : State} (hctrl : t.ctrl = s.ctrl) (hband : t.band = s.band) (hdim : t.dim = s.dim)
    (himg : t.img = s.img) (hepoch : t.epoch = s.epoch) (htrig : t.trig = s.trig) (v : Variant) (m : Mode) (r c : Nat) :
    describe v m t r c = describe v m s r c := by
  have hlist := sampleList_congr (r := r) (c := c) (sample_congr hctrl hdim himg hepoch htrig (variantMode v m) r c)
  have hP : t.cfgP = s.cfgP := by rw [State.cfgP, hctrl, State.cfgP]
  have hin : t.inImage r c = s.inImage r c := by rw [State.inImage, State.height, State.width, hdim]; rfl
  have hpixel : t.imgAt r c = s.imgAt r c := by
    simp only [State.imgAt, State.imgByte, State.cellOffset, State.width, hdim, himg, hepoch]
  simp only [describe, hlist, hP, hin, hpixel, hband]

/-- Settles O17: the samples of a pixel are in bounds one by one, and each unit's meaning is its rule. -/
theorem pixelDescriptor : Obligations.PixelDescriptor := by
  intro v m s r c hpos hP
  refine ⟨fun code samples => (isDescriptor_iff v m hpos hP r c code samples).symm, fun o => ?_,
    fun t hctrl hband hdim himg hepoch htrig => describe_congr hctrl hband hdim himg hepoch htrig v m r c⟩
  rw [describe_eq_error_iff, sampleList_range_eq_error_iff, variantMode_eq_modeOf]

/-! ### The PIXEL commands -/

/-- An accepted command that reads P has it in 1..8 (60_exceptions.md R322, R323). -/
theorem cfgP_mem_of_accepts {i : Instr} {s : State} (h : i.accepts s) (hreads : i.readsP = true) :
    1 ≤ s.cfgP ∧ s.cfgP ≤ 8 := by
  obtain ⟨hconfig, hwidth, -⟩ := h
  have hpos : s.cfgP ≠ 0 := fun h => hconfig (.inl ⟨hreads, h⟩)
  have hle : ¬ 9 ≤ s.cfgP := fun h => hwidth ⟨hreads, h⟩
  omega

theorem planOf_pixel {i : Instr} {v : Variant} {m : Mode} (h : (i, v, m) ∈ pixelForms) :
    (planOf i).work = .component (pixelWork v m) ∧ i.readsP = true := by
  fin_cases h <;> exact ⟨rfl, rfl⟩

theorem pixelWork_ok {v : Variant} {m : Mode} {s : State} {code : Byte} {samples : List F64}
    (h : describe v m s s.argRow s.argCol = .ok (code, samples)) :
    pixelWork v m s = .ok { result := some (code.setWidth 64), samples := numbered samples } := by
  rw [pixelWork, h]

theorem pixelWork_error {v : Variant} {m : Mode} {s : State} {o : OutOfBounds}
    (h : describe v m s s.argRow s.argCol = .error o) : pixelWork v m s = .error o := by
  rw [pixelWork, h]

/-- Writes of consecutive S registers from `k` on. -/
theorem getElem_setSregs_zipIdx (samples : List F64) (k : Nat) (v : Vector Word 8) {p : Nat} (hp : p < 8) :
    (setSregs v ((samples.zipIdx k).map (fun x => (x.2, x.1))))[p] =
      if k ≤ p ∧ p < k + samples.length then samples.getD (p - k) 0#64 else v[p] := by
  induction samples generalizing k v with
  | nil => simp [setSregs, show ¬ (k ≤ p ∧ p < k) by omega]
  | cons x rest ih =>
    rw [List.zipIdx_cons, List.map_cons, setSregs, ih, Vector.getElem_setIfInBounds]
    by_cases hk : k = p
    · subst hk
      simp
    · by_cases hin : k + 1 ≤ p ∧ p < k + 1 + rest.length
      · rw [if_pos hin, if_pos (by rw [List.length_cons]; omega), show p - k = p - (k + 1) + 1 by omega, List.getD_cons_succ]
      · rw [if_neg hin, if_neg hk, if_neg (by rw [List.length_cons]; omega)]

/-- The samples go to S[0..P−1], and S[P..7] keep their values. -/
theorem setSregs_numbered (s : State) (samples : List F64) :
    setSregs s.sregs (numbered samples) =
      Vector.ofFn (fun p : Fin 8 => if p.val < samples.length then samples.getD p.val 0#64 else s.sreg p.val) := by
  ext p hp
  rw [Vector.getElem_ofFn, sreg_eq_getElem s ⟨p, hp⟩, numbered, getElem_setSregs_zipIdx samples 0 s.sregs hp]
  simp

/-- Settles O19: an accepted PIXEL runs its work, and completion writes what it pends, or records the failed test. -/
theorem pixelCommandResult : Obligations.PixelCommandResult := by
  intro i v m s hform hissued haccepts
  obtain ⟨hwork, hreads⟩ := planOf_pixel hform
  obtain ⟨hpos, hP⟩ := cfgP_mem_of_accepts haccepts hreads
  have hcheck := (Laws.accepts_iff i s).1 haccepts
  rw [Laws.exec_eq_runPlan]
  refine ⟨fun code samples h => ?ok, fun o ho => ?error⟩
  case ok =>
    have hlength : samples.length = s.cfgP := h.2.1
    have hdescribe := (isDescriptor_iff v m hpos hP _ _ code samples).1 h
    rw [← hlength, ← setSregs_numbered]
    exact Laws.runPlan_component_ok _ s _ _ hissued hcheck hwork
      (pixelWork_ok ((Laws.describe_executing v m s _ _).trans hdescribe))
  case error =>
    exact Laws.runPlan_component_error _ s _ o hissued hcheck hwork
      (pixelWork_error ((Laws.describe_executing v m s _ _).trans ho))

end Sys2Proof.Proofs
end

section
/-!
PROOFS. What the zero-filling commands leave: completed with code 0 the codes of the interior and zeros around them, ended by
a failed bounds test the codes of the pixels before it (43_pipeline.md R234 to R247): O33, O34, O37.
-/
namespace Sys2Proof.Proofs

open Sys2Proof Sys2Proof.Machine

/-! ### The two passes there are -/

theorem describePass_congr {s t : State} {v : Variant} {m : Mode} {r c : Nat}
    (h : describe v m t r c = describe v m s r c) : describePass v m t r c = describePass v m s r c := by
  rw [describePass, describePass, h]

theorem describePass_local (v : Variant) (m : Mode) : Local (describePass v m) := by
  rintro s u r c ⟨_, _, _, _, rfl⟩ -
  exact describePass_congr (by apply describe_congr <;> rfl)

theorem rotatePass_local : Local rotatePass := by
  rintro s u r c ⟨_, _, _, _, rfl⟩ h
  rw [rotatePass, h, rotatePass]
  rfl

theorem describePass_eq_ok_iff (v : Variant) (m : Mode) (s : State) (r c : Nat) (code : Byte) :
    describePass v m s r c = .ok code ↔ ∃ samples, describe v m s r c = .ok (code, samples) := by
  unfold describePass
  split
  · next h => simp [h]
  · next h => simp [h]

theorem describePass_error {v : Variant} {m : Mode} {s : State} {r c : Nat} {o : OutOfBounds}
    (h : describe v m s r c = .error o) : describePass v m s r c = .error o := by
  rw [describePass, h]

theorem describePass_scanStart (v : Variant) (m : Mode) (z : Bool) (s : State) (r c : Nat) :
    describePass v m (scanStart z s) r c = describePass v m s r c :=
  describePass_congr (by apply describe_congr <;> rfl)

theorem exists_describePass {v : Variant} {m : Mode} {z : Bool} {s : State} {r c : Nat}
    (h : ∃ d, describe v m s r c = .ok d) : ∃ code, describePass v m (scanStart z s) r c = .ok code := by
  obtain ⟨⟨code, samples⟩, h⟩ := h
  exact ⟨code, by rw [describePass_scanStart, describePass_eq_ok_iff]; exact ⟨samples, h⟩⟩

/-! ### The forms of the commands -/

/-- The zero-filling commands with the variant and mode of their first pass (43_pipeline.md R237 to R240). -/
def fillForms : List (Instr × Variant × Mode) := imageForms ++ [(.rilbp, .lbp, .bilinear)]

/-- What is left in a cell whose first pass gave `code`: RILBP minimizes it in its second pass (43_pipeline.md R238). -/
def finalCode (i : Instr) (P : Nat) (code : Byte) : Byte := if i = .rilbp then rimin8 code P else code

/-- The number of passes over the interior. -/
def passes (i : Instr) : Nat := if i = .rilbp then 2 else 1

theorem planOf_imageForms {i : Instr} {v : Variant} {m : Mode} (h : (i, v, m) ∈ imageForms) :
    (planOf i).work = .image true (describePass v m) none ∧ i ≠ .rilbp := by
  fin_cases h <;> exact ⟨rfl, nofun⟩

theorem planOf_fillForms {i : Instr} {v : Variant} {m : Mode} (h : (i, v, m) ∈ fillForms) :
    ∃ g, (planOf i).work = .image true (describePass v m) g := by
  rcases List.mem_append.1 h with h | h
  · exact ⟨none, (planOf_imageForms h).1⟩
  · cases List.mem_singleton.1 h
    exact ⟨some rotatePass, rfl⟩

/-! ### What a pass leaves -/

/-- A cell of the image lies below H·W. -/
theorem cellOffset_lt_size {s : State} {r c : Nat} (hr : r < s.height) (hc : c < s.width) :
    s.cellOffset r c < s.height * s.width := by
  have h := (rowMajor_lt_iff (r := r) (c := c) (r' := s.height) hc (Nat.zero_lt_of_lt hc)).2 (.inl hr)
  simpa [State.cellOffset] using h

theorem scanStart_descByte (s : State) (a : Nat) :
    (scanStart true s).descByte a = if a < s.height * s.width then 0#8 else s.descByte a :=
  Laws.zeroFillDesc_descByte s a

section
variable {f : Pass} {s u : State} {n : Nat}

/-- Only interior cells are written. -/
theorem Scanned.outside (h : Scanned f s n u) {a : Nat} (ha : ∀ r c, s.inInterior r c = true → a ≠ s.cellOffset r c) :
    u.descByte a = s.descByte a :=
  h.rest a fun r c hin _ => ha r c hin

theorem Scanned.outside_beyond (h : Scanned f s n u) {a : Nat} (ha : s.height * s.width ≤ a) : u.descByte a = s.descByte a := by
  refine h.outside fun r c hin heq => ?_
  have hlt := cellOffset_lt hin
  omega

/-- The cells that are not done hold the 0 of the zero-fill (43_pipeline.md R234). -/
theorem Scanned.zero_undone (h : Scanned f (scanStart true s) n u) {r c : Nat} (hr : r < s.height) (hc : c < s.width)
    (hundone : ¬ (s.inInterior r c = true ∧ s.placeIndex r c < n)) : u.descAt r c = 0#8 := by
  rw [h.descAt_undone (s := scanStart true s) hc hundone]
  exact (scanStart_descByte s _).trans (if_pos (cellOffset_lt_size hr hc))

theorem Scanned.beyond (h : Scanned f (scanStart true s) n u) {a : Nat} (ha : s.height * s.width ≤ a) :
    u.descByte a = s.descByte a :=
  (h.outside_beyond (s := scanStart true s) ha).trans ((scanStart_descByte s a).trans (if_neg (by omega)))

end

/-! ### The frame of a whole-image command -/

/-- `t` is `s` but for DESC, PROGRESS and the flight. -/
def ImageFrame (s t : State) : Prop := ∃ desc progress flight, t = { s with desc, progress, flight }

theorem ImageFrame.trans {s t u : State} (h : ImageFrame s t) (h' : ImageFrame t u) : ImageFrame s u := by
  obtain ⟨_, _, _, rfl⟩ := h
  obtain ⟨_, _, _, rfl⟩ := h'
  exact ⟨_, _, _, rfl⟩

theorem SameButScan.imageFrame {s u : State} (h : SameButScan s u) : ImageFrame s u := by
  obtain ⟨_, _, _, _, rfl⟩ := h
  exact ⟨_, _, _, rfl⟩

theorem scanStart_frame (z : Bool) (s : State) : ImageFrame s (scanStart z s) := ⟨_, _, _, rfl⟩

theorem startSecond_frame (s : State) : ImageFrame s s.startSecond := ⟨_, _, _, rfl⟩

section
variable {s u : State}

theorem ImageFrame.errinfo_eq (h : ImageFrame s u) : u.errinfo = s.errinfo := by
  obtain ⟨_, _, _, rfl⟩ := h; rfl

/-- A whole-image command has nothing pending when it completes (43_pipeline.md R243). -/
theorem ImageFrame.finish (h : ImageFrame s u) : OnlyImageWrites s (u.finish {}).complete := by
  obtain ⟨_, _, _, rfl⟩ := h; rfl

theorem ImageFrame.raiseBounds (h : ImageFrame s u) (o : OutOfBounds) : OnlyImageWrites s (u.raiseBounds o).complete := by
  obtain ⟨_, _, _, rfl⟩ := h; rfl

end

theorem onlyImageWrites_raise (s : State) (e : Code) : OnlyImageWrites s (s.raise e).complete := by cases e <;> rfl

/-! ### Completion with code 0 -/

/-- The command has left its codes in the interior and 0 in the border, and has counted its pixel steps. -/
structure FillCompletes (i : Instr) (v : Variant) (m : Mode) (s t : State) : Prop where
  writes : OnlyImageWrites s t
  ecode : t.ecode = .ok
  errinfo : t.errinfo = s.errinfo
  progress : t.progress = s.progress + BitVec.ofNat 64 (passes i * s.interiorCount)
  codes : ∀ r c, s.inInterior r c = true →
    ∃ code samples, describe v m s r c = .ok (code, samples) ∧ t.descAt r c = finalCode i s.cfgP code
  border : ∀ r c, r < s.height → c < s.width → s.inInterior r c = false → t.descAt r c = 0#8
  beyond : ∀ a, s.height * s.width ≤ a → t.descByte a = s.descByte a

theorem exec_onePass_completes {i : Instr} {v : Variant} {m : Mode} {s : State}
    (hform : (i, v, m) ∈ imageForms) (hs : s.issued) (haccepts : i.accepts s)
    (hok : ∀ r c, s.inInterior r c = true → ∃ d, describe v m s r c = .ok d) :
    ∃ t, exec i s = .next t ∧ FillCompletes i v m s t := by
  obtain ⟨hw, hi⟩ := planOf_imageForms hform
  obtain ⟨u, hu, hexec⟩ := exec_onePass hw (describePass_local v m) hs ((Laws.accepts_iff i s).1 haccepts)
    fun r c hin => exists_describePass (hok r c hin)
  have hframe := (scanStart_frame true s).trans hu.frame.imageFrame
  refine ⟨_, hexec, hframe.finish, rfl, hframe.errinfo_eq, ?progress, fun r c hin => ?codes, fun r c hr hc hout => ?border,
    fun a ha => hu.beyond ha⟩
  case progress =>
    rw [passes, if_neg hi, Nat.one_mul]
    exact hu.count
  case codes =>
    have hcode := hu.done_all (s := scanStart true s) hin
    rw [describePass_scanStart, describePass_eq_ok_iff] at hcode
    obtain ⟨samples, h⟩ := hcode
    exact ⟨_, samples, h, by rw [finalCode, if_neg hi]; rfl⟩
  case border => exact hu.zero_undone hr hc (by simp [hout])

theorem exec_rilbp_completes {s : State} (hs : s.issued) (haccepts : Instr.rilbp.accepts s)
    (hok : ∀ r c, s.inInterior r c = true → ∃ d, describe .lbp .bilinear s r c = .ok d) :
    ∃ t, exec .rilbp s = .next t ∧ FillCompletes .rilbp .lbp .bilinear s t := by
  obtain ⟨u, w, hu, hw, hexec⟩ := exec_twoPasses (i := .rilbp) rfl (describePass_local .lbp .bilinear) rotatePass_local hs
    ((Laws.accepts_iff .rilbp s).1 haccepts) (fun r c hin => exists_describePass (hok r c hin)) fun u r c => ⟨_, rfl⟩
  have hfirst := (scanStart_frame true s).trans hu.frame.imageFrame
  have hframe := (hfirst.trans (startSecond_frame u)).trans hw.frame.imageFrame
  have hinterior (r c : Nat) : u.startSecond.inInterior r c = s.inInterior r c := hu.frame.interior_eq r c
  have hcount : u.interiorCount = s.interiorCount := hu.frame.interiorCount_eq
  have hsize : u.height = s.height ∧ u.width = s.width ∧ u.cfgP = s.cfgP := by
    obtain ⟨_, _, _, rfl⟩ := hfirst
    exact ⟨rfl, rfl, rfl⟩
  obtain ⟨hheight, hwidth, hP⟩ := hsize
  refine ⟨_, hexec, hframe.finish, rfl, hframe.errinfo_eq, ?progress, fun r c hin => ?codes, fun r c hr hc hout => ?border,
    fun a ha => ?beyond⟩
  case progress =>
    show w.progress = s.progress + BitVec.ofNat 64 (2 * s.interiorCount)
    rw [hw.count, Nat.two_mul, BitVec.ofNat_add, ← BitVec.add_assoc]
    exact congrArg (· + _) hu.count
  case codes =>
    have hcode := hu.done_all (s := scanStart true s) hin
    rw [describePass_scanStart, describePass_eq_ok_iff] at hcode
    obtain ⟨samples, h⟩ := hcode
    have hrotated := Scanned.done_all (s := u.startSecond) (hcount ▸ hw) (r := r) (c := c) (by rw [hinterior, hin])
    refine ⟨_, samples, h, ?_⟩
    rw [finalCode, if_pos rfl, ← hP]
    exact (Except.ok.inj hrotated).symm
  case border =>
    have hkept := hw.descAt_undone (r := r) (c := c) (hwidth ▸ hc) (by simp [hinterior, hout])
    exact hkept.trans (hu.zero_undone hr hc (by simp [hout]))
  case beyond =>
    have hkept := hw.outside_beyond (a := a) (show u.height * u.width ≤ a by rwa [hheight, hwidth])
    exact hkept.trans (hu.beyond ha)

/-- A zero-filling command whose interior pixels all have a descriptor. -/
theorem exec_completes {i : Instr} {v : Variant} {m : Mode} {s : State} (hform : (i, v, m) ∈ fillForms) (hs : s.issued)
    (haccepts : i.accepts s) (hok : ∀ r c, s.inInterior r c = true → ∃ d, describe v m s r c = .ok d) :
    ∃ t, exec i s = .next t ∧ FillCompletes i v m s t := by
  rcases List.mem_append.1 hform with h | h
  · exact exec_onePass_completes h hs haccepts hok
  · cases List.mem_singleton.1 h
    exact exec_rilbp_completes hs haccepts hok

/-- Settles O33: the run of one pass. -/
theorem wholeImageCommandResult : Obligations.WholeImageCommandResult := by
  intro i v m s hform hs haccepts hok
  obtain ⟨t, hexec, ht⟩ := exec_onePass_completes hform hs haccepts hok
  obtain ⟨-, hi⟩ := planOf_imageForms hform
  refine ⟨t, hexec, ht.writes, ht.ecode, ht.errinfo, ?_, fun r c hin => ?_, ht.border, ht.beyond⟩
  · simpa [passes, hi] using ht.progress
  · obtain ⟨code, samples, h, hcell⟩ := ht.codes r c hin
    exact ⟨samples, by rw [hcell, finalCode, if_neg hi, h]⟩

/-- The RI-LBP descriptor is the bilinear LBP descriptor with the least rotation of its code. -/
theorem describe_rilbp {m : Mode} {s : State} {r c : Nat} {code : Byte} {samples : List F64}
    (h : describe .lbp .bilinear s r c = .ok (code, samples)) :
    describe .rilbp m s r c = .ok (rimin8 code s.cfgP, samples) := by
  rw [describe_eq_ok_iff] at h ⊢
  obtain ⟨hin, hlist, rfl⟩ := h
  exact ⟨hin, hlist, rfl⟩

/-- Settles O34: the second pass minimizes what the first has left. -/
theorem rilbpCommandResult : Obligations.RilbpCommandResult := by
  intro s hs haccepts hok
  obtain ⟨t, hexec, ht⟩ := exec_rilbp_completes hs haccepts hok
  refine ⟨t, hexec, ht.writes, ht.ecode, ht.errinfo, ht.progress, fun r c m hin => ?_, ht.border, ht.beyond⟩
  obtain ⟨code, samples, h, hcell⟩ := ht.codes r c hin
  exact ⟨samples, by rw [hcell, finalCode, if_pos rfl, describe_rilbp h]⟩

/-! ### A bounds test that fails -/

/-- The command has ended at the pixel (r₀, c₀), whose descriptor meets the failed test `o`. -/
structure FillStops (v : Variant) (m : Mode) (s : State) (r₀ c₀ : Nat) (o : OutOfBounds) (t : State) : Prop where
  writes : OnlyImageWrites s t
  ecode : t.ecode = .ebounds
  errinfo : t.errinfo = o.info
  progress : t.progress = s.progress + BitVec.ofNat 64 (s.placeIndex r₀ c₀)
  codes : ∀ r c, s.inInterior r c = true → earlierPixel r c r₀ c₀ →
    ∃ samples, describe v m s r c = .ok (t.descAt r c, samples)
  others : ∀ r c, r < s.height → c < s.width → ¬ (s.inInterior r c = true ∧ earlierPixel r c r₀ c₀) →
    t.descAt r c = 0#8
  beyond : ∀ a, s.height * s.width ≤ a → t.descByte a = s.descByte a

theorem exec_stops {i : Instr} {v : Variant} {m : Mode} {s : State} {r₀ c₀ : Nat} {o : OutOfBounds}
    (hform : (i, v, m) ∈ fillForms) (hs : s.issued) (haccepts : i.accepts s) (hin : s.inInterior r₀ c₀ = true)
    (herror : describe v m s r₀ c₀ = .error o)
    (hok : ∀ r c, s.inInterior r c = true → earlierPixel r c r₀ c₀ → ∃ d, describe v m s r c = .ok d) :
    ∃ t, exec i s = .next t ∧ FillStops v m s r₀ c₀ o t := by
  obtain ⟨g, hw⟩ := planOf_fillForms hform
  obtain ⟨u, hu, hexec⟩ := exec_boundsError hw (describePass_local v m) hs ((Laws.accepts_iff i s).1 haccepts) hin
    (by rw [describePass_scanStart, describePass_error herror]) fun r c hin hlt => exists_describePass (hok r c hin hlt)
  have hframe := (scanStart_frame true s).trans hu.frame.imageFrame
  refine ⟨_, hexec, hframe.raiseBounds o, rfl, rfl, hu.count, fun r c hin' hlt => ?codes,
    fun r c hr hc hundone => ?others, fun a ha => hu.beyond ha⟩
  case codes =>
    have hcode := hu.done r c hin' ((placeIndex_lt_iff hin' hin).2 hlt)
    rwa [describePass_scanStart, describePass_eq_ok_iff] at hcode
  case others =>
    exact hu.zero_undone hr hc fun ⟨hin', hlt⟩ => hundone ⟨hin', (placeIndex_lt_iff hin' hin).1 hlt⟩

/-- Settles O37: the first pass ends at the first pixel that has no byte. -/
theorem wholeImageBoundsError : Obligations.WholeImageBoundsError := by
  intro i v m s r₀ c₀ o hform hs haccepts hin herror hok
  obtain ⟨t, hexec, ht⟩ := exec_stops hform hs haccepts hin herror hok
  exact ⟨t, hexec, ht.writes, ht.ecode, ht.errinfo, ht.progress, ht.codes, ht.others, ht.beyond⟩

end Sys2Proof.Proofs
end

section
/-!
PROOFS. How a whole-image command ends, and what follows for its cells: the border is 0, only the records and DESC are written,
no bounds test fails under 00_scope.md R10, the codes fit, a second run leaves the same, and PIXEL agrees (43_pipeline.md R241 to
R246): O38, O39, O36, O43, O41, O42.
-/
namespace Sys2Proof.Proofs

open Sys2Proof Sys2Proof.Machine

/-! ### The ways a whole-image command ends -/

/-- A property of all interior pixels, or the first pixel in row-major order that fails it. -/
theorem all_or_first_failing (s : State) (p : Nat → Nat → Prop) :
    (∀ r c, s.inInterior r c = true → p r c) ∨
      ∃ r₀ c₀, s.inInterior r₀ c₀ = true ∧ ¬ p r₀ c₀ ∧
        ∀ r c, s.inInterior r c = true → earlierPixel r c r₀ c₀ → p r c := by
  classical
  by_cases h : ∃ n r c, s.inInterior r c = true ∧ ¬ p r c ∧ s.placeIndex r c = n
  · obtain ⟨r₀, c₀, hin, hnot, hindex⟩ := Nat.find_spec h
    refine .inr ⟨r₀, c₀, hin, hnot, fun r c hin' hlt => by_contra fun hnot' => ?_⟩
    rw [← placeIndex_lt_iff hin' hin, hindex] at hlt
    exact Nat.find_min h hlt ⟨r, c, hin', hnot', rfl⟩
  · exact .inl fun r c hin => by_contra fun hnot => h ⟨_, r, c, hin, hnot, rfl⟩

theorem exists_fillForm {i : Instr} (h : i ∈ fillCommands) : ∃ v m, (i, v, m) ∈ fillForms := by
  fin_cases h
  · exact ⟨.lbp, .nearest, by decide⟩
  · exact ⟨.lbp, .bilinear, by decide⟩
  · exact ⟨.lbp, .bilinear, by decide⟩
  · exact ⟨.ulbp, .truncate, by decide⟩
  · exact ⟨.albp, .nearest, by decide⟩
  · exact ⟨.albp, .bilinear, by decide⟩

/-- What decides how a zero-filling command ends: its checks, and the first interior pixel without a descriptor. -/
inductive FillEnd (i : Instr) (v : Variant) (m : Mode) (s : State) : Prop
  | rejected (e : Code) (error : e ≠ .ok) (check : checkCode (planOf i) s = some e)
  | completes (accepts : i.accepts s) (ok : ∀ r c, s.inInterior r c = true → ∃ d, describe v m s r c = .ok d)
  | stops (accepts : i.accepts s) (r₀ c₀ : Nat) (o : OutOfBounds) (interior : s.inInterior r₀ c₀ = true)
      (error : describe v m s r₀ c₀ = .error o)
      (ok : ∀ r c, s.inInterior r c = true → earlierPixel r c r₀ c₀ → ∃ d, describe v m s r c = .ok d)

theorem fillEnd (i : Instr) (v : Variant) (m : Mode) (s : State) : FillEnd i v m s := by
  cases hcheck : checkCode (planOf i) s with
  | some e => exact .rejected e (checkCode_ne_ok hcheck) hcheck
  | none =>
    have haccepts := (Laws.accepts_iff i s).2 hcheck
    rcases all_or_first_failing s (fun r c => ∃ d, describe v m s r c = .ok d) with hok | ⟨r₀, c₀, hin, hnot, hok⟩
    · exact .completes haccepts hok
    · cases hd : describe v m s r₀ c₀ with
      | ok d => exact absurd ⟨d, hd⟩ hnot
      | error o => exact .stops haccepts r₀ c₀ o hin hd hok

theorem exec_rejected {i : Instr} {s : State} {e : Code} (hs : s.issued) (h : checkCode (planOf i) s = some e) :
    exec i s = .next (s.raise e).complete := by
  rw [Laws.exec_eq_runPlan, Laws.runPlan_check_error _ s e hs h]

/-- Of the ways to end only one reports code 0. -/
theorem fillCompletes_of_ok {i : Instr} {v : Variant} {m : Mode} {s t : State} (hform : (i, v, m) ∈ fillForms)
    (hs : s.issued) (hexec : exec i s = .next t) (hcode : t.ecode = .ok) : i.accepts s ∧ FillCompletes i v m s t := by
  cases fillEnd i v m s with
  | rejected e error check =>
    cases hexec.symm.trans (exec_rejected hs check)
    exact absurd hcode error
  | completes accepts ok =>
    obtain ⟨u, hexec', hu⟩ := exec_completes hform hs accepts ok
    cases hexec.symm.trans hexec'
    exact ⟨accepts, hu⟩
  | stops accepts r₀ c₀ o interior error ok =>
    obtain ⟨u, hexec', hu⟩ := exec_stops hform hs accepts interior error ok
    cases hexec.symm.trans hexec'
    exact absurd (hcode.symm.trans hu.ecode) (by decide)

/-- Settles O38: the border of the one way to end with code 0. -/
theorem borderCellsAreZero : Obligations.BorderCellsAreZero := by
  intro i s t hi hs hexec hcode r c hr hc hborder
  obtain ⟨v, m, hform⟩ := exists_fillForm hi
  obtain ⟨-, ht⟩ := fillCompletes_of_ok hform hs hexec hcode
  refine ht.border r c hr hc ?_
  rw [← Bool.not_eq_true, inInterior_iff]
  omega

/-! ### What is written -/

/-- `OnlyImageWrites` with the values that are written named. -/
theorem exists_of_onlyImageWrites {s t : State} (h : OnlyImageWrites s t) :
    ∃ desc progress errinfo ecode,
      t = { s with desc, progress, errinfo, ecode, busy := false, done := true, flight := {} } :=
  ⟨_, _, _, _, h⟩

theorem exec_fill_writes {i : Instr} {v : Variant} {m : Mode} {s : State} (hform : (i, v, m) ∈ fillForms) (hs : s.issued) :
    ∃ t, exec i s = .next t ∧ OnlyImageWrites s t := by
  cases fillEnd i v m s with
  | rejected e error check => exact ⟨_, exec_rejected hs check, onlyImageWrites_raise s e⟩
  | completes accepts ok =>
    obtain ⟨t, hexec, ht⟩ := exec_completes hform hs accepts ok
    exact ⟨t, hexec, ht.writes⟩
  | stops accepts r₀ c₀ o interior error ok =>
    obtain ⟨t, hexec, ht⟩ := exec_stops hform hs accepts interior error ok
    exact ⟨t, hexec, ht.writes⟩

/-- RIPASS reads no IMG, so that an accepted one completes (44_rotation.md R283). -/
theorem exec_ripass {s : State} (hs : s.issued) (haccepts : Instr.ripass.accepts s) :
    ∃ u, Scanned rotatePass (scanStart false s) s.interiorCount u ∧ exec .ripass s = .next (u.finish {}).complete :=
  exec_onePass (i := .ripass) rfl rotatePass_local hs ((Laws.accepts_iff .ripass s).1 haccepts) fun _ _ _ => ⟨_, rfl⟩

theorem exec_ripass_writes {s : State} (hs : s.issued) : ∃ t, exec .ripass s = .next t ∧ OnlyImageWrites s t := by
  cases hcheck : checkCode (planOf .ripass) s with
  | some e => exact ⟨_, exec_rejected hs hcheck, onlyImageWrites_raise s e⟩
  | none =>
    obtain ⟨u, hu, hexec⟩ := exec_ripass hs ((Laws.accepts_iff .ripass s).2 hcheck)
    exact ⟨_, hexec, ((scanStart_frame false s).trans hu.frame.imageFrame).finish⟩

/-- RIPASS is the whole-image command that does not zero-fill. -/
theorem fillCommand_or_ripass {i : Instr} (h : i ∈ [Instr.lbpN, .lbpB, .rilbp, .ulbp, .albpN, .albpB, .ripass]) :
    i ∈ fillCommands ∨ i = .ripass := by
  rcases List.mem_append.1 (show i ∈ fillCommands ++ [.ripass] from h) with h | h
  · exact .inl h
  · exact .inr (List.mem_singleton.1 h)

/-- Settles O39: by the ways a whole-image command ends. -/
theorem wholeImageWritesNoResult : Obligations.WholeImageWritesNoResult := by
  intro i s hi hs
  obtain ⟨t, hexec, ht⟩ : ∃ t, exec i s = .next t ∧ OnlyImageWrites s t := by
    rcases fillCommand_or_ripass hi with hi | rfl
    · obtain ⟨v, m, hform⟩ := exists_fillForm hi
      exact exec_fill_writes hform hs
    · exact exec_ripass_writes hs
  obtain ⟨_, _, _, _, rfl⟩ := exists_of_onlyImageWrites ht
  exact ⟨_, hexec, ht, rfl, rfl, rfl⟩

/-! ### No bounds test fails under R10 -/

/-- A finite value between two integers is rounded to one between them, in each of the four ways (00_scope.md R9). -/
theorem rounded_mem_Icc {x : F64} (hx : isFinite x = true) {a b : ℤ} (ha : (a : ℚ) ≤ f64Value x) (hb : f64Value x ≤ b) :
    floorF x ∈ Set.Icc a b ∧ ceilF x ∈ Set.Icc a b ∧ truncF x ∈ Set.Icc a b ∧ rndAwayF x ∈ Set.Icc a b := by
  have hfloor : ⌊f64Value x⌋ ∈ Set.Icc a b := ⟨Int.le_floor.2 ha, Int.cast_le.1 ((Int.floor_le _).trans hb)⟩
  have hceil : ⌈f64Value x⌉ ∈ Set.Icc a b := ⟨Int.cast_le.1 (ha.trans (Int.le_ceil _)), Int.ceil_le.2 hb⟩
  have hround := rndAwayF_roundsAway hx
  refine ⟨by rwa [floorF_eq hx], by rwa [ceilF_eq hx], ?_, ?_, ?_⟩
  · rw [truncF_eq hx]
    split <;> assumption
  · by_contra hlt
    have hlt' : (rndAwayF x : ℚ) < a := by exact_mod_cast not_le.1 hlt
    have hnear := (hround a).1
    rw [abs_of_nonneg (by linarith), abs_of_nonneg (by linarith)] at hnear
    linarith
  · by_contra hlt
    have hlt' : (b : ℚ) < rndAwayF x := by exact_mod_cast not_le.1 hlt
    have hnear := (hround b).1
    rw [abs_of_nonpos (by linarith), abs_of_nonpos (by linarith)] at hnear
    linarith

/-- A sample of an interior pixel reads within R rows and columns of it, and so inside the image. -/
theorem sample_ok_of_trigInUnit {s : State} (htrig : s.trigInUnit = true) {r c : Nat} (hin : s.inInterior r c = true)
    (m : Mode) (p : Nat) : ∃ x, sample s m r c p = .ok x := by
  rw [inInterior_iff] at hin
  have hheight : s.height < 2 ^ 16 := BitVec.isLt _
  have hwidth : s.width < 2 ^ 16 := BitVec.isLt _
  obtain ⟨-, hxf, hx, hyf, hy⟩ := sampleCoordinatesStayInReach s r c p htrig (by omega) (by omega)
  rw [abs_le] at hx hy
  obtain ⟨hfx, hcx, htx, hrx⟩ := rounded_mem_Icc hxf (a := r - s.cfgR) (b := r + s.cfgR)
    (by push_cast; linarith) (by push_cast; linarith)
  obtain ⟨hfy, hcy, hty, hry⟩ := rounded_mem_Icc hyf (a := c - s.cfgR) (b := c + s.cfgR)
    (by push_cast; linarith) (by push_cast; linarith)
  have hinside {a b : ℤ} (ha : a ∈ Set.Icc ((r : ℤ) - s.cfgR) (r + s.cfgR))
      (hb : b ∈ Set.Icc ((c : ℤ) - s.cfgR) (c + s.cfgR)) : s.inImage a b = true := by
    rw [Set.mem_Icc] at ha hb
    simp only [State.inImage, Bool.and_eq_true, decide_eq_true_eq]
    omega
  refine ⟨_, sampleMode_inside p ((firstOutside_eq_none_iff _ _).2 ?_)⟩
  cases m with
  | nearest => simpa [readPlaces] using hinside hrx hry
  | truncate => simpa [readPlaces] using hinside htx hty
  | bilinear => simp [readPlaces, hinside hfx hfy, hinside hcx hfy, hinside hfx hcy, hinside hcx hcy]

theorem describe_ok_of_trigInUnit {s : State} (htrig : s.trigInUnit = true) {r c : Nat} (hin : s.inInterior r c = true)
    (v : Variant) (m : Mode) : ∃ d, describe v m s r c = .ok d := by
  rcases Laws.describe_cases v m s r c with ⟨-, vs, -, h⟩ | ⟨-, o, ho, -⟩ | ⟨hout, -⟩
  · exact ⟨_, h⟩
  · obtain ⟨p, -, herror, -⟩ := (sampleList_range_eq_error_iff _ _ _ _ _ _).1 ho
    obtain ⟨x, hx⟩ := sample_ok_of_trigInUnit htrig hin (variantMode v m) p
    cases herror.symm.trans hx
  · rw [inInterior_iff] at hin
    rw [← Bool.not_eq_true] at hout
    refine absurd ?_ hout
    simp only [State.inImage, Bool.and_eq_true, decide_eq_true_eq]
    omega

/-- Settles O36: every interior pixel has a descriptor, and RIPASS needs none. -/
theorem wholeImageNeverRaisesBounds : Obligations.WholeImageNeverRaisesBounds := by
  intro i s hi hs haccepts htrig
  rcases fillCommand_or_ripass hi with hi | rfl
  · obtain ⟨v, m, hform⟩ := exists_fillForm hi
    obtain ⟨t, hexec, ht⟩ := exec_completes hform hs haccepts fun r c hin => describe_ok_of_trigInUnit htrig hin v m
    obtain ⟨_, _, _, _, rfl⟩ := exists_of_onlyImageWrites ht.writes
    exact ⟨_, hexec, ht.ecode, rfl, rfl⟩
  · obtain ⟨u, -, hexec⟩ := exec_ripass hs haccepts
    exact ⟨_, hexec, rfl, rfl, rfl⟩

/-! ### The codes fit the pattern -/

theorem encodeSamples_lt (k : Rule) (o : Order) (b : F64) (cen : Byte) (samples : List F64) :
    encodeSamples k o b cen samples < 2 ^ samples.length := by
  rw [encodeSamples, ← List.length_map (f := ruleBit k b cen) (as := samples)]
  cases o
  · exact packM_lt _
  · exact packL_lt _

/-- The code of a pixel is below 2^P, unless ULBP puts its sentinel (45_uniformity.md R301). -/
theorem pixelCode_bound (v : Variant) (P : Nat) (b : F64) (cen : Byte) (samples : List F64) :
    (pixelCode v P b cen samples).toNat < 2 ^ samples.length ∨
      (v = .ulbp ∧ pixelCode v P b cen samples = BitVec.ofNat 8 (P + 1)) := by
  have hbefore : (BitVec.ofNat 8 (encodeSamples (variantRule v) (variantOrder v) b cen samples)).toNat < 2 ^ samples.length :=
    (Nat.mod_le _ _).trans_lt (encodeSamples_lt _ _ _ _ _)
  unfold pixelCode
  generalize BitVec.ofNat 8 (encodeSamples (variantRule v) (variantOrder v) b cen samples) = before at *
  cases v with
  | lbp | albp => exact .inl hbefore
  | rilbp => exact .inl ((rimin8_le before P).trans_lt hbefore)
  | ulbp =>
    rw [variantPost, ucls8]
    split
    · exact .inl hbefore
    · exact .inr ⟨rfl, rfl⟩

theorem describe_code_bound {v : Variant} {m : Mode} {s : State} {r c : Nat} {code : Byte} {samples : List F64}
    (h : describe v m s r c = .ok (code, samples)) :
    code.toNat < 2 ^ s.cfgP ∨ (v = .ulbp ∧ code = BitVec.ofNat 8 (s.cfgP + 1)) := by
  obtain ⟨-, hlist, rfl⟩ := (describe_eq_ok_iff _ _ _ _ _ _ _).1 h
  have hbound := pixelCode_bound v s.cfgP s.band (s.imgAt r c) samples
  rwa [((sampleList_range_eq_ok_iff _ _ _ _ _ _).1 hlist).1] at hbound

theorem ulbp_of_fillForm {i : Instr} {v : Variant} {m : Mode} (h : (i, v, m) ∈ fillForms) :
    (v = .ulbp ↔ i = .ulbp) ∧ i.readsP = true := by
  fin_cases h <;> exact ⟨by decide, rfl⟩

theorem finalCode_le (i : Instr) (P : Nat) (code : Byte) : finalCode i P code ≤ code := by
  unfold finalCode
  split
  · exact rimin8_le code P
  · exact BitVec.le_refl code

/-- Settles O43: P bits make the code, and minimizing it does not enlarge it. -/
theorem interiorCodesFitThePattern : Obligations.InteriorCodesFitThePattern := by
  intro i s t hi hs hexec hcode r c hin
  obtain ⟨v, m, hform⟩ := exists_fillForm hi
  obtain ⟨hulbp, hreads⟩ := ulbp_of_fillForm hform
  obtain ⟨haccepts, ht⟩ := fillCompletes_of_ok hform hs hexec hcode
  obtain ⟨-, hP⟩ := cfgP_mem_of_accepts haccepts hreads
  obtain ⟨code, samples, hdescribe, hcell⟩ := ht.codes r c hin
  rcases describe_code_bound hdescribe with hlt | ⟨hv, hsentinel⟩
  · have hle : (t.descAt r c).toNat < 2 ^ s.cfgP := hcell ▸ (finalCode_le i s.cfgP code).trans_lt hlt
    exact ⟨fun _ => hle, fun _ => .inl hle⟩
  · have hi : i = .ulbp := hulbp.1 hv
    refine ⟨fun hne => absurd hi hne, fun _ => .inr ?_⟩
    rw [hcell, hi, finalCode, if_neg (by decide), hsentinel, BitVec.toNat_ofNat, Nat.mod_eq_of_lt (by omega)]

/-! ### A second run -/

/-- Two DESCs that agree on the cells of the image agree below H·W. -/
theorem descByte_eq_of_cells {s t u : State} (ht : t.width = s.width) (hu : u.width = s.width)
    (h : ∀ r c, r < s.height → c < s.width → u.descAt r c = t.descAt r c) {a : Nat} (ha : a < s.height * s.width) :
    u.descByte a = t.descByte a := by
  have hwidth : 0 < s.width := Nat.pos_of_mul_pos_left (show 0 < s.height * s.width by omega)
  have hcell := h (a / s.width) (a % s.width) (Nat.div_lt_of_lt_mul (by rwa [Nat.mul_comm])) (Nat.mod_lt _ hwidth)
  rwa [State.descAt, State.descAt, State.cellOffset, State.cellOffset, ht, hu, Nat.div_add_mod'] at hcell

theorem width_of_onlyImageWrites {s t : State} (h : OnlyImageWrites s t) : t.width = s.width := by
  obtain ⟨_, _, _, _, rfl⟩ := exists_of_onlyImageWrites h
  rfl

/-- What a command leaves for a host to compare: the bytes of the image in DESC, and the records. -/
def SameOutcome (s t u : State) : Prop :=
  (∀ a, a < s.height * s.width → u.descByte a = t.descByte a) ∧ u.progress = t.progress ∧ u.ecode = t.ecode ∧
    u.errinfo = t.errinfo

theorem describe_desc (v : Variant) (m : Mode) (s : State) (d : Memory) (r c : Nat) :
    describe v m { s with desc := d } r c = describe v m s r c := by
  apply describe_congr <;> rfl

theorem FillCompletes.unique {i : Instr} {v : Variant} {m : Mode} {s t u : State} {d : Memory}
    (ht : FillCompletes i v m s t) (hu : FillCompletes i v m { s with desc := d } u) : SameOutcome s t u := by
  refine ⟨fun a => descByte_eq_of_cells (width_of_onlyImageWrites ht.writes) (width_of_onlyImageWrites hu.writes)
    fun r c hr hc => ?_, hu.progress.trans ht.progress.symm, hu.ecode.trans ht.ecode.symm, hu.errinfo.trans ht.errinfo.symm⟩
  cases hin : s.inInterior r c with
  | true =>
    obtain ⟨code, samples, hdescribe, hcell⟩ := ht.codes r c hin
    obtain ⟨code', samples', hdescribe', hcell'⟩ := hu.codes r c hin
    rw [describe_desc, hdescribe] at hdescribe'
    cases hdescribe'
    exact hcell'.trans hcell.symm
  | false => exact (hu.border r c hr hc hin).trans (ht.border r c hr hc hin).symm

theorem FillStops.unique {v : Variant} {m : Mode} {s t u : State} {d : Memory} {r₀ c₀ : Nat} {o : OutOfBounds}
    (ht : FillStops v m s r₀ c₀ o t) (hu : FillStops v m { s with desc := d } r₀ c₀ o u) : SameOutcome s t u := by
  refine ⟨fun a => descByte_eq_of_cells (width_of_onlyImageWrites ht.writes) (width_of_onlyImageWrites hu.writes)
    fun r c hr hc => ?_, hu.progress.trans ht.progress.symm, hu.ecode.trans ht.ecode.symm, hu.errinfo.trans ht.errinfo.symm⟩
  by_cases hdone : s.inInterior r c = true ∧ earlierPixel r c r₀ c₀
  · obtain ⟨samples, hdescribe⟩ := ht.codes r c hdone.1 hdone.2
    obtain ⟨samples', hdescribe'⟩ := hu.codes r c hdone.1 hdone.2
    rw [describe_desc, hdescribe] at hdescribe'
    simp only [Except.ok.injEq, Prod.mk.injEq] at hdescribe'
    exact hdescribe'.1.symm
  · exact (hu.others r c hr hc hdone).trans (ht.others r c hr hc hdone).symm

/-- The state a command leaves, given the command again, is the state it was first given in but for DESC. -/
theorem given_again {i : Instr} {s t : State} (h : OnlyImageWrites (s.given i) t) :
    t.given i = { s.given i with desc := t.desc } := by
  obtain ⟨_, _, _, _, rfl⟩ := exists_of_onlyImageWrites h
  rfl

theorem checkCode_fill_desc {i : Instr} {v : Variant} {m : Mode} (h : (i, v, m) ∈ fillForms) (s : State) (d : Memory) :
    checkCode (planOf i) { s with desc := d } = checkCode (planOf i) s := by
  fin_cases h <;> rfl

/-- Settles O41: how a zero-filling command ends, and with what, does not depend on what DESC held. -/
theorem zeroFillingCommandsAreIdempotent : Obligations.ZeroFillingCommandsAreIdempotent := by
  intro i s t u hi hfirst hsecond
  obtain ⟨v, m, hform⟩ := exists_fillForm hi
  obtain ⟨t', hexec, hwrites⟩ := exec_fill_writes hform (s := s.given i) rfl
  cases hfirst.symm.trans hexec
  rw [given_again hwrites] at hsecond
  have hcheck := checkCode_fill_desc hform (s.given i) t.desc
  have haccepts : i.accepts (s.given i) → i.accepts { s.given i with desc := t.desc } := by
    rw [Laws.accepts_iff, Laws.accepts_iff, hcheck]
    exact id
  have hissued : (s.given i).issued := rfl
  have hissued' : ({ s.given i with desc := t.desc } : State).issued := rfl
  show SameOutcome (s.given i) t u
  cases fillEnd i v m (s.given i) with
  | rejected e error check =>
    cases hfirst.symm.trans (exec_rejected hissued check)
    cases hsecond.symm.trans (exec_rejected hissued' (hcheck.trans check))
    exact ⟨fun _ _ => rfl, rfl, rfl, rfl⟩
  | completes accepts ok =>
    obtain ⟨t', hexec, ht⟩ := exec_completes hform hissued accepts ok
    cases hfirst.symm.trans hexec
    obtain ⟨u', hexec', hu⟩ := exec_completes hform hissued' (haccepts accepts) fun r c hin => by
      rw [describe_desc]; exact ok r c hin
    cases hsecond.symm.trans hexec'
    exact ht.unique hu
  | stops accepts r₀ c₀ o interior error ok =>
    obtain ⟨t', hexec, ht⟩ := exec_stops hform hissued accepts interior error ok
    cases hfirst.symm.trans hexec
    obtain ⟨u', hexec', hu⟩ := exec_stops hform hissued' (haccepts accepts) interior
      ((describe_desc v m _ _ r₀ c₀).trans error) fun r c hin hlt => by rw [describe_desc]; exact ok r c hin hlt
    cases hsecond.symm.trans hexec'
    exact ht.unique hu

/-! ### PIXEL -/

/-- A PIXEL command and its twin: they read the same configuration, and the final code of the one is the code of the other. -/
theorem pixelTwin {i j : Instr} (h : (i, j) ∈ pixelTwins) :
    ∃ v m v' m', (i, v', m') ∈ pixelForms ∧ (j, v, m) ∈ fillForms ∧ (planOf i).reads = (planOf j).reads ∧
      (planOf i).operandBad = operandPixel ∧
      ∀ s r c code samples, describe v m s r c = .ok (code, samples) →
        describe v' m' s r c = .ok (finalCode j s.cfgP code, samples) := by
  fin_cases h
  · exact ⟨.lbp, .nearest, .lbp, .nearest, by decide, by decide, rfl, rfl, fun _ _ _ _ _ h => h⟩
  · exact ⟨.lbp, .bilinear, .lbp, .bilinear, by decide, by decide, rfl, rfl, fun _ _ _ _ _ h => h⟩
  · exact ⟨.lbp, .bilinear, .rilbp, .bilinear, by decide, by decide, rfl, rfl, fun _ _ _ _ _ => describe_rilbp⟩
  · exact ⟨.ulbp, .truncate, .ulbp, .truncate, by decide, by decide, rfl, rfl, fun _ _ _ _ _ h => h⟩
  · exact ⟨.albp, .nearest, .albp, .nearest, by decide, by decide, rfl, rfl, fun _ _ _ _ _ h => h⟩
  · exact ⟨.albp, .bilinear, .albp, .bilinear, by decide, by decide, rfl, rfl, fun _ _ _ _ _ h => h⟩

/-- ARG0 with ROW and COL and nothing above them (10_state.md R38; 60_exceptions.md R324). -/
theorem arg0_of_pixel {s : State} {r c : Nat} (hr : r < 2 ^ 16) (hc : c < 2 ^ 16)
    (h : s.arg0 = BitVec.ofNat 64 (c * 2 ^ 16 + r)) : s.argRow = r ∧ s.argCol = c ∧ operandPixel s = false := by
  have harg : s.arg0.toNat = c * 2 ^ 16 + r := by
    rw [h, BitVec.toNat_ofNat]
    omega
  have hhigh : s.arg0.extractLsb' 32 32 = 0#32 := BitVec.eq_of_toNat_eq (by rw [toNat_field, harg, BitVec.toNat_ofNat]; omega)
  refine ⟨?_, ?_, by simp [operandPixel, hhigh]⟩
  · rw [State.argRow, toNat_low_field, harg]
    omega
  · rw [State.argCol, toNat_field, harg]
    omega

/-- Settles O42: both take the descriptor of the same pixel. -/
theorem pixelMatchesWholeImage : Obligations.PixelMatchesWholeImage := by
  intro i j s t r c htwin hexec hcode hin harg
  obtain ⟨v, m, v', m', hpixel, hform, hreads, hoperand, hdescribe⟩ := pixelTwin htwin
  obtain ⟨haccepts, ht⟩ := fillCompletes_of_ok hform (s := s.given j) rfl hexec hcode
  have hbounds := (inInterior_iff s r c).1 hin
  have hheight : s.height < 2 ^ 16 := BitVec.isLt _
  have hwidth : s.width < 2 ^ 16 := BitVec.isLt _
  obtain ⟨hrow, hcol, hok⟩ := arg0_of_pixel (by omega) (by omega) harg
  have hcheck : checkCode (planOf i) (s.given i) = none := by
    obtain ⟨-, hconfig, hwidth, -⟩ := (Laws.checkCode_none_iff _ _).1 ((Laws.accepts_iff j _).1 haccepts)
    refine (Laws.checkCode_none_iff _ _).2 ⟨Laws.planOf_legal i, ?_, ?_, ?_⟩
    · rw [hreads]; exact hconfig
    · rw [hreads]; exact hwidth
    · rw [hoperand]; exact hok
  obtain ⟨code, samples, hcode', hcell⟩ := ht.codes r c hin
  have hgiven : describe v' m' (Laws.executing (s.given i)) s.argRow s.argCol =
      .ok (finalCode j s.cfgP code, samples) := by
    rw [hrow, hcol]
    refine Eq.trans ?_ (hdescribe (s.given j) r c code samples hcode')
    apply describe_congr <;> rfl
  rw [Laws.exec_eq_runPlan, hcell]
  exact ⟨_, Laws.runPlan_component_ok _ _ _ _ rfl hcheck (planOf_pixel hpixel).1 (pixelWork_ok hgiven), rfl, rfl⟩

end Sys2Proof.Proofs
end

section
/-!
PROOFS. NOP, and what one step of CORE runs or answers (43_pipeline.md R230, R236; 20_memory.md R92): O10, O4.
-/
namespace Sys2Proof.Proofs

open Sys2Proof Sys2Proof.Machine

/-! ### NOP -/

/-- NOP reads nothing, so that its check passes under any configuration. -/
theorem exec_nop {s : State} (hs : s.issued) : exec .nop s = .next (s.ended .ok) := by
  have haccepts : checkCode planNop s = none := rfl
  rw [Laws.exec_eq_runPlan, planOf, Laws.runPlan_nothing planNop s hs haccepts rfl]
  rfl

theorem eq_nop_of_fieldOpc {i : Instr} (h : fieldOpc (encode i) = 0) : i = .nop := by
  have hopc : opcValue i.fields.opc = 0 := (hasFields_encodeFields i.fields).opc.symm.trans h
  cases i
  case nop => rfl
  all_goals cases hopc

/-- Settles O10: the run of NOP, and the one word of its OPC. -/
theorem nopCompletes : Obligations.NopCompletes := by
  have hword : encode .nop = 0#64 := rfl
  refine ⟨fun s => exec_nop, fun s => ?_, hword ▸ decode_encode .nop, fun w hopc hne i hdecode => hne ?_⟩
  · rw [exec_nop (s := s.given .nop) rfl, State.given, hword]
    rfl
  · obtain rfl := eq_encode_of_decode hdecode
    rw [eq_nop_of_fieldOpc (congrArg BitVec.toNat hopc), hword]

/-! ### One step -/

/-- The command in flight is run by the arm of its word. -/
theorem runCommand_of_decode {s : State} {i : Instr} (h : decode s.cmd = .ok i) : runCommand s = exec i s := by
  rw [Laws.runCommand_eq_runPlan, planOfWord_of_decode h, Laws.exec_eq_runPlan]

theorem withFetchWord_encode (s : State) (i : Instr) :
    s.withFetchWord 64 (encode i).toNat = { s.given i with agenda := [] } := by
  rw [State.withFetchWord, Nat.mod_eq_of_lt (encode i).isLt, BitVec.ofNat_toNat, BitVec.setWidth_eq, State.given]

/-- The fields of the model outside CORE: what is to come and what was answered (log 1). -/
def outside (s : State) : List Event × List Reply := (s.agenda, s.replies)

theorem outside_writeCsr (s : State) (r : Csr) (v : Word) : outside (s.writeCsr r v) = outside s := by cases r <;> rfl

theorem outside_writeBytes (s : State) (b : Buffer) (k w : Nat) (v : Word) :
    outside (s.writeBytes b k w v) = outside s := by
  cases b <;> rfl

theorem outside_countDraw (s : State) (b : Buffer) : outside (s.countDraw b) = outside s := by
  rw [countDraw_eq]
  rfl

/-- An access touches neither the events to come nor the replies; its own reply is added by the step. -/
theorem outside_hostAccess (a : Access) (s : State) : outside (hostAccess a s).1 = outside s := by
  rcases Laws.hostAccess_cases a s with e | ⟨w, o, r, -, -, e⟩ | ⟨w, o, b, k, -, -, e⟩ | ⟨w, o, v, r, -, -, -, e⟩ |
    ⟨w, o, v, b, k, -, -, -, e⟩ <;> rw [e]
  · exact outside_countDraw s b
  · exact outside_writeCsr s r v
  · exact outside_writeBytes s b k w v

/-- The reply to an access stands in front of those before it. -/
theorem access_eq (a : Access) (s : State) :
    s.access a = { (hostAccess a s).1 with replies := (hostAccess a s).2 :: s.replies } := by
  have hreplies : (hostAccess a s).1.replies = s.replies := congrArg Prod.snd (outside_hostAccess a s)
  rw [State.access, hreplies]

/-- Settles O4: a step by its event. -/
theorem stepRunsDecodedCommand : Obligations.StepRunsDecodedCommand := by
  refine ⟨fun s i _ hdecode => ⟨fun hagenda => ?idle, fun rest hagenda => ?run⟩,
    fun s i => ⟨withFetchWord_encode s i, ?fetch⟩, fun s a rest hagenda => ?access⟩
  case idle =>
    rw [← runCommand_of_decode hdecode]
    simp only [step, hagenda]
  case run =>
    rw [← runCommand_of_decode (s := { s with agenda := rest }) hdecode]
    simp only [step, hagenda]
  case fetch =>
    rw [withFetchWord_encode]
    exact runCommand_of_decode (s := { s.given i with agenda := [] }) (decode_encode i)
  case access =>
    obtain ⟨hevents, hreplies⟩ := Prod.ext_iff.1 (outside_hostAccess a { s with agenda := rest })
    refine ⟨_, _, rfl, hreplies, hevents, ?_⟩
    have hstep : step s = .next (State.access a { s with agenda := rest }) := by simp only [step, hagenda]
    exact hstep.trans (congrArg _ (access_eq a { s with agenda := rest }))

end Sys2Proof.Proofs
end

section
/-!
PROOFS. Rotation minimization as a function, as the command RIMIN, and as a pass over DESC, alone and after LBP.B
(44_rotation.md R280 to R284): O23, O24, O15, O35, O40.
-/
namespace Sys2Proof.Proofs

open Sys2Proof Sys2Proof.Machine

/-! ### All eight rotations -/

theorem rotateLeft_zero (v : Byte) : v.rotateLeft 0 = v := by
  simp [BitVec.rotateLeft_def, BitVec.ushiftRight_eq_zero]

theorem rotl8_eq_rotateLeft (v : Byte) {k : Nat} (hk : k < 8) : rotl8 v k = v.rotateLeft k := by
  rw [rotl8]
  split
  · next hzero => rw [hzero, rotateLeft_zero]
  · rw [BitVec.rotateLeft_def, Nat.mod_eq_of_lt hk]

/-- Also for 8 places, which is a whole turn. -/
theorem rotationOf_eq_rotateLeft (v : Byte) {k : Nat} (hk : k ≤ 8) : Machine.rotationOf v k = v.rotateLeft k := by
  rcases Nat.lt_or_eq_of_le hk with hlt | rfl
  · rw [← rotl8_eq_rotationOf v hlt, rotl8_eq_rotateLeft v hlt]
  · rw [← BitVec.rotateLeft_mod_eq_rotateLeft, rotateLeft_zero]
    apply BitVec.eq_of_toNat_eq
    simp [Machine.rotationOf, v.isLt]

/-- Rotations that differ by whole turns are the same. -/
theorem rotateLeft_congr (v : Byte) {j k : Nat} (h : j % 8 = k % 8) : v.rotateLeft j = v.rotateLeft k := by
  rw [← BitVec.rotateLeft_mod_eq_rotateLeft, h, BitVec.rotateLeft_mod_eq_rotateLeft]

theorem rotateLeft_rotateLeft (v : Byte) (j k : Nat) : (v.rotateLeft j).rotateLeft k = v.rotateLeft (j + k) := by
  have hindex {a b : Nat} (ha : a < 8) (hb : b < 8) (h : a = b) : v[a] = v[b] := by simp [h]
  ext i hi
  simp only [BitVec.getElem_rotateLeft]
  split_ifs <;> refine hindex _ _ ?_ <;> omega

/-- With P = 8 no rotation is left out, however far it goes. -/
theorem leastRotation_eight_iff (r v : Byte) :
    LeastRotation r v 8 ↔ (∃ k, r = v.rotateLeft k) ∧ ∀ k, r ≤ v.rotateLeft k := by
  have hturn (k : Nat) : Machine.rotationOf v (k % 8) = v.rotateLeft k := by
    rw [rotationOf_eq_rotateLeft v (Nat.mod_lt k (by decide)).le, BitVec.rotateLeft_mod_eq_rotateLeft]
  constructor
  · rintro ⟨⟨k, hk, rfl⟩, hleast⟩
    exact ⟨⟨k, rotationOf_eq_rotateLeft v hk.le⟩, fun j => hturn j ▸ hleast _ (Nat.mod_lt j (by decide))⟩
  · rintro ⟨⟨k, rfl⟩, hleast⟩
    exact ⟨⟨k % 8, Nat.mod_lt k (by decide), (hturn k).symm⟩,
      fun j hj => (rotationOf_eq_rotateLeft v hj.le).symm ▸ hleast j⟩

theorem leastRotation_eight_rimin8 (v : Byte) : (∃ k, rimin8 v 8 = v.rotateLeft k) ∧ ∀ k, rimin8 v 8 ≤ v.rotateLeft k :=
  (leastRotation_eight_iff _ v).1 (leastRotation_rimin8 v (by decide) (by decide))

/-- Settles O23: RIMIN8 is the least rotation, and a rotation to the right by `k` is one to the left by `8 - k`. -/
theorem rotationMinimum : Obligations.RotationMinimum := by
  refine ⟨fun v P hpos hP => ⟨leastRotation_rimin8 v hpos hP, rimin8_le v P⟩, fun v k => rotl8_eq_rotationOf v,
    ⟨by decide, by decide⟩, fun v => ?_⟩
  obtain ⟨⟨k, hk⟩, hleast⟩ := leastRotation_eight_rimin8 v
  have hright (j : Nat) : Machine.rotationOf v (8 - j) = v.rotateLeft (8 - j) :=
    rotationOf_eq_rotateLeft v (Nat.sub_le 8 j)
  refine ⟨⟨(8 - k % 8) % 8, Nat.mod_lt _ (by decide), ?_⟩, fun j _ => hright j ▸ hleast (8 - j)⟩
  rw [hright, hk]
  exact rotateLeft_congr v (by omega)

/-! ### Rotation minimization again -/

/-- A rotation of `v` has the rotations of `v` (44_rotation.md R284). -/
theorem rimin8_rotateLeft (v : Byte) (j : Nat) : rimin8 (v.rotateLeft j) 8 = rimin8 v 8 := by
  obtain ⟨⟨k, hk⟩, hleast⟩ := leastRotation_eight_rimin8 v
  have hrotated : LeastRotation (rimin8 v 8) (v.rotateLeft j) 8 := by
    refine (leastRotation_eight_iff _ _).2 ⟨⟨7 * j + k, ?_⟩, fun i => ?_⟩
    · rw [hk, rotateLeft_rotateLeft]
      exact rotateLeft_congr v (by omega)
    · rw [rotateLeft_rotateLeft]
      exact hleast (j + i)
  exact ((leastRotation_iff _ _ (by decide) (by decide)).1 hrotated).symm

/-- A rotation that moves no bit past bit 7 does not make the value smaller. -/
theorem le_rotationOf {v : Byte} {k : Nat} (h : v.toNat * 2 ^ k < 2 ^ 8) : v ≤ Machine.rotationOf v k := by
  have hlow : v.toNat / 2 ^ (8 - k) = 0 := by
    refine Nat.div_eq_of_lt (Nat.lt_of_mul_lt_mul_right (a := 2 ^ k) (h.trans_le ?_))
    rw [← pow_add]
    exact Nat.pow_le_pow_right (by decide) (by omega)
  rw [BitVec.le_def, Machine.rotationOf, hlow, Nat.add_zero, BitVec.toNat_ofNat, Nat.mod_eq_of_lt h]
  exact Nat.le_mul_of_pos_right _ (by positivity)

/-- For P ≤ 4 a code of P bits stays as it is (44_rotation.md R281). -/
theorem rimin8_eq_self {v : Byte} {P : Nat} (hpos : 1 ≤ P) (hP : P ≤ 4) (hv : v.toNat < 2 ^ P) : rimin8 v P = v := by
  refine ((leastRotation_iff v v hpos (by omega)).1 ⟨⟨0, hpos, ?_⟩, fun k hk => le_rotationOf ?_⟩).symm
  · rw [rotationOf_eq_rotateLeft v (Nat.zero_le 8), rotateLeft_zero]
  · calc v.toNat * 2 ^ k < 2 ^ P * 2 ^ k := Nat.mul_lt_mul_of_pos_right hv (by positivity)
      _ = 2 ^ (P + k) := (pow_add 2 P k).symm
      _ ≤ 2 ^ 8 := Nat.pow_le_pow_right (by decide) (by omega)

/-- For P = 5 codes from 16 on can wrap round; there are 32 codes to try. -/
theorem rimin8_five_idempotent : ∀ n < 32, rimin8 (rimin8 (BitVec.ofNat 8 n) 5) 5 = rimin8 (BitVec.ofNat 8 n) 5 := by
  decide

theorem rimin8_eight_idempotent (v : Byte) : rimin8 (rimin8 v 8) 8 = rimin8 v 8 := by
  obtain ⟨⟨k, hk⟩, -⟩ := leastRotation_eight_rimin8 v
  rw [hk, rimin8_rotateLeft, hk]

theorem rimin8_idempotent {v : Byte} {P : Nat} (hP : P ∈ [1, 2, 3, 4, 5, 8]) (hv : v.toNat < 2 ^ P) :
    rimin8 (rimin8 v P) P = rimin8 v P := by
  have hcases : (1 ≤ P ∧ P ≤ 4) ∨ P = 5 ∨ P = 8 := by
    simp only [List.mem_cons, List.not_mem_nil, or_false] at hP
    omega
  rcases hcases with ⟨hpos, hle⟩ | rfl | rfl
  · rw [rimin8_eq_self hpos hle hv, rimin8_eq_self hpos hle hv]
  · simpa using rimin8_five_idempotent v.toNat hv
  · exact rimin8_eight_idempotent v

/-- Settles O24: for P = 8 the rotations are all there are, for P ≤ 4 no bit wraps round, and the rest is enumerated. In 254 the
one clear bit moves up to place P − 1, from where it can move up once more. -/
theorem rotationProperties : Obligations.RotationProperties := by
  refine ⟨fun v j hj => ?_, fun P hP v => rimin8_idempotent hP, by decide, fun P hP => ⟨254#8, ?_⟩, by decide, by decide⟩
  · rw [rotl8_eq_rotateLeft v hj, rimin8_rotateLeft]
  · revert P
    decide

/-! ### RIMIN -/

/-- Settles O15: an accepted RIMIN runs its work, whose value is the least rotation. -/
theorem riminResult : Obligations.RiminResult := by
  intro s hissued haccepts
  obtain ⟨hpos, hP⟩ := cfgP_mem_of_accepts haccepts rfl
  refine ⟨_, leastRotation_rimin8 s.argVal hpos hP, ?_⟩
  rw [Laws.exec_eq_runPlan]
  exact Laws.runPlan_component_ok _ s _ _ hissued ((Laws.accepts_iff .rimin s).1 haccepts) rfl rfl

/-! ### RIPASS -/

/-- RIPASS has minimized the interior cells of DESC, kept its other bytes, and counted one pass. -/
structure RotatesInterior (s t : State) : Prop where
  writes : OnlyImageWrites s t
  ecode : t.ecode = .ok
  errinfo : t.errinfo = s.errinfo
  progress : t.progress = s.progress + BitVec.ofNat 64 s.interiorCount
  cells : ∀ r c, s.inInterior r c = true → t.descAt r c = rimin8 (s.descAt r c) s.cfgP
  others : ∀ a, (∀ r c, s.inInterior r c = true → a ≠ s.cellOffset r c) → t.descByte a = s.descByte a

theorem exec_ripass_rotates {s : State} (hs : s.issued) (haccepts : Instr.ripass.accepts s) :
    ∃ t, exec .ripass s = .next t ∧ RotatesInterior s t := by
  obtain ⟨u, hu, hexec⟩ := exec_ripass hs haccepts
  have hframe := (scanStart_frame false s).trans hu.frame.imageFrame
  exact ⟨_, hexec, {
    writes := hframe.finish
    ecode := rfl
    errinfo := hframe.errinfo_eq
    progress := hu.count
    cells := fun r c hin => (Except.ok.inj (hu.done_all (s := scanStart false s) hin)).symm
    others := fun a ha => hu.outside ha }⟩

section
variable {s t : State}

theorem RotatesInterior.border (h : RotatesInterior s t) {r c : Nat} (hc : c < s.width) (hout : s.inInterior r c = false) :
    t.descAt r c = s.descAt r c := by
  rw [State.descAt, State.cellOffset, width_of_onlyImageWrites h.writes]
  refine h.others _ fun r' c' hin heq => ?_
  obtain ⟨rfl, rfl⟩ := cellOffset_injective hc (col_lt_of_interior hin) heq
  exact absurd hin (by simp [hout])

theorem RotatesInterior.beyond (h : RotatesInterior s t) {a : Nat} (ha : s.height * s.width ≤ a) :
    t.descByte a = s.descByte a := by
  refine h.others a fun r c hin heq => ?_
  have hlt := cellOffset_lt hin
  omega

end

/-- Settles O35: the run of the one pass of RIPASS. -/
theorem ripassCommandResult : Obligations.RipassCommandResult := by
  intro s hs haccepts
  obtain ⟨hpos, hP⟩ := cfgP_mem_of_accepts haccepts rfl
  obtain ⟨t, hexec, ht⟩ := exec_ripass_rotates hs haccepts
  exact ⟨t, hexec, ht.writes, ht.ecode, ht.errinfo, ht.progress,
    fun r c hin => (leastRotation_iff _ _ hpos hP).2 (ht.cells r c hin), ht.others⟩

/-! ### LBP.B and RIPASS against RILBP -/

/-- LBP.B, RIPASS and RILBP read the same configuration (30_encoding.md R131) and no operand. -/
theorem checkCode_after_lbpB {s t : State} {x : Word} (h : OnlyImageWrites (s.issue x) t) (y z : Word) :
    checkCode (planOf .ripass) (t.issue y) = checkCode (planOf .lbpB) (s.issue x) ∧
      checkCode (planOf .rilbp) (s.issue z) = checkCode (planOf .lbpB) (s.issue x) := by
  obtain ⟨_, _, _, _, rfl⟩ := exists_of_onlyImageWrites h
  exact ⟨rfl, rfl⟩

theorem issued_issue (s : State) (x : Word) : (s.issue x).issued := rfl

theorem describe_issue (v : Variant) (m : Mode) (s : State) (x y : Word) (r c : Nat) :
    describe v m (s.issue x) r c = describe v m (s.issue y) r c := by
  apply describe_congr <;> rfl

/-- `t` is what LBP.B leaves of `s` when it completes with code 0, `u` what RIPASS leaves of `t`, and `w` what RILBP leaves of
`s`. The words in CMD are left open, since none of the commands reads them. -/
structure TwoStep (s t u w : State) : Prop where
  lbp : ∃ x, FillCompletes .lbpB .lbp .bilinear (s.issue x) t
  ripass : ∃ y, RotatesInterior (t.issue y) u
  rilbp : ∃ z, FillCompletes .rilbp .lbp .bilinear (s.issue z) w

theorem twoStep_of_exec {s t u w : State} {x y z : Word} (hlbp : exec .lbpB (s.issue x) = .next t) (hcode : t.ecode = .ok)
    (hripass : exec .ripass (t.issue y) = .next u) (hrilbp : exec .rilbp (s.issue z) = .next w) : TwoStep s t u w := by
  obtain ⟨haccepts, ht⟩ := fillCompletes_of_ok (v := .lbp) (m := .bilinear) (by decide) (issued_issue s x) hlbp hcode
  obtain ⟨hcheck, hcheck'⟩ := checkCode_after_lbpB ht.writes y z
  rw [(Laws.accepts_iff _ _).1 haccepts, ← Laws.accepts_iff] at hcheck hcheck'
  obtain ⟨u', hexec, hu⟩ := exec_ripass_rotates (issued_issue t y) hcheck
  obtain ⟨w', hexec', hw⟩ := exec_rilbp_completes (issued_issue s z) hcheck' fun r c hin => by
    obtain ⟨code, samples, h, -⟩ := ht.codes r c hin
    exact ⟨_, (describe_issue _ _ s z x r c).trans h⟩
  cases hripass.symm.trans hexec
  cases hrilbp.symm.trans hexec'
  exact ⟨⟨x, ht⟩, ⟨y, hu⟩, ⟨z, hw⟩⟩

section
variable {s t u w : State}

/-- RIPASS finds in a cell what the first pass of RILBP leaves there for the second. -/
theorem TwoStep.descAt_eq (h : TwoStep s t u w) {r c : Nat} (hr : r < s.height) (hc : c < s.width) :
    u.descAt r c = w.descAt r c := by
  obtain ⟨⟨x, ht⟩, ⟨y, hu⟩, z, hw⟩ := h
  obtain ⟨_, _, _, _, rfl⟩ := exists_of_onlyImageWrites ht.writes
  cases hin : s.inInterior r c with
  | true =>
    obtain ⟨code, samples, hdescribe, hcell⟩ := ht.codes r c hin
    obtain ⟨code', samples', hdescribe', hcell'⟩ := hw.codes r c hin
    rw [describe_issue _ _ s z x, hdescribe] at hdescribe'
    cases hdescribe'
    calc u.descAt r c = rimin8 (State.descAt _ r c) s.cfgP := hu.cells r c hin
      _ = rimin8 code s.cfgP := congrArg (rimin8 · s.cfgP) hcell
      _ = w.descAt r c := hcell'.symm
  | false =>
    calc u.descAt r c = State.descAt _ r c := hu.border hc hin
      _ = 0#8 := ht.border r c hr hc hin
      _ = w.descAt r c := (hw.border r c hr hc hin).symm

theorem TwoStep.beyond (h : TwoStep s t u w) {a : Nat} (ha : s.height * s.width ≤ a) : u.descByte a = w.descByte a := by
  obtain ⟨⟨x, ht⟩, ⟨y, hu⟩, z, hw⟩ := h
  obtain ⟨_, _, _, _, rfl⟩ := exists_of_onlyImageWrites ht.writes
  calc u.descByte a = State.descByte _ a := hu.beyond ha
    _ = s.descByte a := ht.beyond a ha
    _ = w.descByte a := (hw.beyond a ha).symm

theorem TwoStep.width_eq (h : TwoStep s t u w) : u.width = s.width ∧ w.width = s.width := by
  obtain ⟨⟨x, ht⟩, ⟨y, hu⟩, z, hw⟩ := h
  have ht' : t.width = (s.issue x).width := width_of_onlyImageWrites ht.writes
  have hw' : w.width = (s.issue z).width := width_of_onlyImageWrites hw.writes
  exact ⟨(width_of_onlyImageWrites hu.writes).trans ht', hw'⟩

theorem TwoStep.descByte_eq (h : TwoStep s t u w) (a : Nat) : u.descByte a = w.descByte a := by
  obtain ⟨hu, hw⟩ := h.width_eq
  rcases Nat.lt_or_ge a (s.height * s.width) with ha | ha
  · exact descByte_eq_of_cells hw hu (fun r c => h.descAt_eq) ha
  · exact h.beyond ha

/-- RIPASS counts one pass and RILBP two. -/
theorem TwoStep.records (h : TwoStep s t u w) :
    u.ecode = .ok ∧ w.ecode = .ok ∧ u.progress = BitVec.ofNat 64 s.interiorCount ∧
      w.progress = BitVec.ofNat 64 (2 * s.interiorCount) := by
  obtain ⟨⟨x, ht⟩, ⟨y, hu⟩, z, hw⟩ := h
  obtain ⟨_, _, _, _, rfl⟩ := exists_of_onlyImageWrites ht.writes
  exact ⟨hu.ecode, hw.ecode, hu.progress.trans (BitVec.zero_add _), hw.progress.trans (BitVec.zero_add _)⟩

end

/-- Settles O40: RIPASS finds the codes of LBP.B in DESC, and RILBP finds the same codes after its first pass. -/
theorem twoStepEqualsRilbp : Obligations.TwoStepEqualsRilbp := by
  intro s t u w hlbp hcode hripass hrilbp
  have h := twoStep_of_exec hlbp hcode hripass hrilbp
  obtain ⟨hu, hw, hcount, hcount'⟩ := h.records
  exact ⟨hu, hw, h.descByte_eq, hcount, hcount'⟩

end Sys2Proof.Proofs
end

section
/-!
PROOFS. The uniformity classifier as a function and as the command UCLASS (45_uniformity.md R300 to R303): O16, O25.
-/
namespace Sys2Proof.Proofs

open Sys2Proof Sys2Proof.Machine

/-! ### Transitions along a run of bits -/

theorem toNat_xor_trans_mod_two (a b c : Bool) :
    ((a ^^ b).toNat + (b ^^ c).toNat) % 2 = (a ^^ c).toNat % 2 := by
  revert a b c
  decide

/-- Along a run of bits the number of changes is odd exactly when the run ends in another bit than it begins with. -/
theorem sum_changes_mod_two (bit : Nat → Bool) (n : Nat) :
    ((List.range n).map (fun i => (bit i ^^ bit (i + 1)).toNat)).sum % 2 = (bit 0 ^^ bit n).toNat % 2 := by
  induction n with
  | zero => simp
  | succ n ih =>
    rw [List.sum_range_succ, ← toNat_xor_trans_mod_two (bit 0) (bit n) (bit (n + 1))]
    omega

/-- The step from bit 7 round to bit 0 makes the number of changes even (45_uniformity.md R303). -/
theorem tr8_mod_two (v : Byte) : tr8 v % 2 = (v.getLsbD 0 ^^ v.getLsbD 7).toNat % 2 := sum_changes_mod_two v.getLsbD 7

theorem tr8_le_seven (v : Byte) : tr8 v ≤ 7 := by
  rw [tr8_eq_transitions]
  exact (Finset.card_filter_le _ _).trans_eq (Finset.card_range 7)

/-- The sentinel of R301 fits in a byte. -/
theorem toNat_sentinel {P : Nat} (hP : P ≤ 8) : (BitVec.ofNat 8 (P + 1)).toNat = P + 1 := by
  rw [BitVec.toNat_ofNat]
  exact Nat.mod_eq_of_lt (by omega)

/-- Among the 256 bytes, by enumeration. -/
theorem length_filter_uniform :
    ((List.range 256).filter (fun n => decide (tr8 (BitVec.ofNat 8 n) ≤ 2))).length = 58 := by
  decide

/-- Settles O25: the circular count is even and at most one more than TR8, so it and TR8 go past 2 together; the 58 uniform
bytes are enumerated. -/
theorem uniformityClassification : Obligations.UniformityClassification := by
  refine ⟨fun v => ⟨tr8_eq_transitions v, tr8_le_seven v, fun P hP => ⟨ucls8_eq_uniformClass v P, ?sentinel⟩⟩,
    length_filter_uniform, fun v => ?circular⟩
  case sentinel =>
    simp only [List.mem_cons, List.not_mem_nil, or_false] at hP
    exact toNat_sentinel (by omega)
  case circular =>
    have hparity := tr8_mod_two v
    have hwrap := Bool.toNat_le (v.getLsbD 0 ^^ v.getLsbD 7)
    omega

/-! ### UCLASS -/

/-- Settles O16: an accepted UCLASS runs its work, whose value is the class of VAL. -/
theorem uclassResult : Obligations.UclassResult := by
  intro s hissued haccepts
  rw [Laws.exec_eq_runPlan, ← ucls8_eq_uniformClass]
  exact Laws.runPlan_component_ok _ s _ _ hissued ((Laws.accepts_iff .uclass s).1 haccepts) rfl rfl

end Sys2Proof.Proofs
end

section
/-!
PROOFS. The exceptions of 60_exceptions.md: the order of the checks of a command and what a failed one leaves (R322 to R328), the
failed test that EBOUNDS records (R326), and the interrupt level (R329): O6, O18, O53.
-/
namespace Sys2Proof.Proofs

open Sys2Proof Sys2Proof.Machine

/-! ### The checks -/

theorem planOf_image_mem {i : Instr} {z : Bool} {f : Pass} {g : Option Pass} (h : (planOf i).work = .image z f g) :
    i ∈ [Instr.lbpN, .lbpB, .rilbp, .ulbp, .albpN, .albpB, .ripass] := by
  cases i
  case lbpN | lbpB | rilbp | ulbp | albpN | albpB | ripass => decide
  all_goals cases h

/-- An error before completion discards everything pending, whatever its code (60_exceptions.md R325). -/
theorem raise_complete_eq_ended (s : State) (e : Code) : (s.raise e).complete = s.ended e := by cases e <;> rfl

theorem step_of_decode {s : State} {i : Instr} (hagenda : s.agenda = []) (hdecode : decode s.cmd = .ok i) :
    step s = exec i s := by
  rw [← runCommand_of_decode hdecode]
  simp only [step, hagenda]

/-- The code of the first check that fails, in the order of 60_exceptions.md R328. -/
theorem checkCode_planOf (i : Instr) (s : State) :
    (i.configBad s → checkCode (planOf i) s = some .econfig) ∧
      (¬ i.configBad s → i.widthBad s → checkCode (planOf i) s = some .eoverflow) ∧
      (¬ i.configBad s → ¬ i.widthBad s → i.operandFault s → checkCode (planOf i) s = some .eoperand) := by
  rw [Laws.configBad_iff, Laws.widthBad_iff, Laws.operandFault_iff, checkCode, Laws.planOf_legal]
  refine ⟨fun hconfig => ?_, fun hconfig hwidth => ?_, fun hconfig hwidth hoperand => ?_⟩
  · simp [hconfig]
  · simp [hconfig, hwidth]
  · simp [hconfig, hwidth, hoperand]

/-- The command has completed with one of the codes a command can end with past its checks. -/
def EndsPastChecks (t : State) : Prop := t.busy = false ∧ t.done = true ∧ (t.ecode = .ok ∨ t.ecode = .ebounds)

theorem endsPastChecks_of_writes {s t : State} (h : OnlyImageWrites s t) (hcode : t.ecode = .ok ∨ t.ecode = .ebounds) :
    EndsPastChecks t := by
  obtain ⟨_, _, _, _, rfl⟩ := exists_of_onlyImageWrites h
  exact ⟨rfl, rfl, hcode⟩

theorem exec_fill_accepted {i : Instr} {s : State} (hi : i ∈ fillCommands) (hs : s.issued) (haccepts : i.accepts s) :
    ∃ t, exec i s = .next t ∧ EndsPastChecks t := by
  obtain ⟨v, m, hform⟩ := exists_fillForm hi
  cases fillEnd i v m s with
  | rejected e error check => cases ((Laws.accepts_iff i s).1 haccepts).symm.trans check
  | completes accepts ok =>
    obtain ⟨t, hexec, ht⟩ := exec_completes hform hs accepts ok
    exact ⟨t, hexec, endsPastChecks_of_writes ht.writes (.inl ht.ecode)⟩
  | stops accepts r₀ c₀ o interior error ok =>
    obtain ⟨t, hexec, ht⟩ := exec_stops hform hs accepts interior error ok
    exact ⟨t, hexec, endsPastChecks_of_writes ht.writes (.inr ht.ecode)⟩

/-- An accepted command runs its work, which ends without error or with a failed bounds test. -/
theorem exec_accepted {i : Instr} {s : State} (hs : s.issued) (haccepts : i.accepts s) :
    ∃ t, exec i s = .next t ∧ EndsPastChecks t := by
  have hcheck := (Laws.accepts_iff i s).1 haccepts
  cases hw : (planOf i).work with
  | nothing =>
    rw [Laws.exec_eq_runPlan, Laws.runPlan_nothing _ s hs hcheck hw]
    exact ⟨_, rfl, rfl, rfl, .inl rfl⟩
  | component compute =>
    rw [Laws.exec_eq_runPlan]
    cases hcompute : compute (Laws.executing s) with
    | ok p => exact ⟨_, Laws.runPlan_component_ok _ s _ p hs hcheck hw hcompute, rfl, rfl, .inl rfl⟩
    | error o => exact ⟨_, Laws.runPlan_component_error _ s _ o hs hcheck hw hcompute, rfl, rfl, .inr rfl⟩
  | image z f g =>
    rcases fillCommand_or_ripass (planOf_image_mem hw) with hi | rfl
    · exact exec_fill_accepted hi hs haccepts
    · obtain ⟨u, -, hexec⟩ := exec_ripass hs haccepts
      exact ⟨_, hexec, rfl, rfl, .inl rfl⟩

/-- Settles O6: the check stage gives the code of the first failing check, and an accepted command runs its work. -/
theorem checksInFixedOrder : Obligations.ChecksInFixedOrder := by
  intro s hs hagenda
  refine ⟨fun e herror => step_of_no_command hs hagenda fun i hi => ?_, fun i hdecode => ?_⟩
  · cases herror.symm.trans hi
  · rw [step_of_decode hagenda hdecode]
    have hrejected {e : Code} (h : checkCode (planOf i) s = some e) : exec i s = .next (s.ended e) := by
      rw [exec_rejected hs h, raise_complete_eq_ended]
    obtain ⟨hconfig, hwidth, hoperand⟩ := checkCode_planOf i s
    exact ⟨fun h => hrejected (hconfig h), fun h h' => hrejected (hwidth h h'),
      fun h h' h'' => hrejected (hoperand h h' h''), exec_accepted hs⟩

/-! ### The failed test of EBOUNDS -/

/-- The fields of ERRINFO (10_state.md R42). -/
theorem info_fields (o : OutOfBounds) :
    o.info.extractLsb' 0 24 = BitVec.ofInt 24 o.row ∧ o.info.extractLsb' 24 24 = BitVec.ofInt 24 o.col ∧
      o.info.extractLsb' 48 8 = BitVec.ofNat 8 o.index := by
  have hindex : o.info.extractLsb' 48 8 = (0#8 ++ BitVec.ofNat 8 o.index).extractLsb' 0 8 :=
    (BitVec.extractLsb'_append_eq_of_le (by decide)).trans (BitVec.extractLsb'_append_eq_of_le (by decide))
  exact ⟨BitVec.extractLsb'_append_eq_right,
    (BitVec.extractLsb'_append_eq_of_le (by decide)).trans BitVec.extractLsb'_append_eq_right,
    hindex.trans BitVec.extractLsb'_append_eq_right⟩

/-- A sample fails exactly when one of its places is outside the image, and with the first such place. -/
theorem sample_eq_error_iff (s : State) (m : Mode) (r c p : Nat) (o : OutOfBounds) :
    sample s m r c p = .error o ↔
      firstOutside s (readPlaces m (sampleX s r p) (sampleY s c p)) = some (o.row, o.col) ∧ o.index = p := by
  cases h : firstOutside s (readPlaces m (sampleX s r p) (sampleY s c p)) with
  | none => simp [sample, sampleMode_inside p h]
  | some q =>
    rw [sample, sampleMode_outside p h]
    obtain ⟨row, col, index⟩ := o
    simp [Prod.ext_iff, eq_comm, and_assoc]

/-- Settles O18: the errors of PIXEL, SAMPLE and the sampling function, with the layout of ERRINFO. Which places a sample reads
does not depend on IMG, and neither do the tests. -/
theorem firstFailingTest : Obligations.FirstFailingTest := by
  refine ⟨fun o => ?layout, fun i v m s hform hs haccepts => ?pixel,
    fun i m s o hform hs haccepts => (sampleCommandResult i m s hform hs haccepts).2 o, fun s r c p o herror => ?corners,
    fun s m r c p o other herror => ?independent⟩
  case layout =>
    obtain ⟨hrow, hcol, hindex⟩ := info_fields o
    exact ⟨hrow, hcol, hindex, info_reserved o⟩
  case pixel =>
    have hraises := (pixelCommandResult i v m s hform hs haccepts).2
    refine ⟨fun hout => hraises _ ?_, fun p o hin hp herror hbefore => hraises o ?_⟩
    · exact (describe_eq_error_iff v m s _ _ _).2 (.inl ⟨hout, rfl⟩)
    · rw [describe_eq_error_iff, sampleList_range_eq_error_iff, variantMode_eq_modeOf]
      exact .inr ⟨hin, p, hp, herror, hbefore⟩
  case corners =>
    obtain ⟨hplace, hindex⟩ := (sample_eq_error_iff s .bilinear r c p o).1 herror
    exact ⟨_, _, rfl, rfl, hplace, hindex⟩
  case independent =>
    rw [sample_eq_error_iff] at herror ⊢
    exact herror

/-! ### The interrupt level -/

/-- With BUSY = 0 no command is in flight, and the pipeline does nothing. -/
theorem runCommand_of_not_busy {s : State} (hc : ControlOk s) (hb : s.busy = false) : runCommand s = .next s :=
  if_pos (by rw [hc.idle hb])

theorem coreStep_of_not_busy {s : State} (hc : ControlOk s) (hb : s.busy = false) (k : Plan) : coreStep k s = s := by
  rw [coreStep, hc.idle hb]

/-- The events by which the host or the platform changes the interrupt level, with DONE before and the level after each.
`step_irq` ties them to the model. -/
inductive IrqEvent (done level : Bool) : Event → Prop
  | reset (low : level = false) : IrqEvent done level .reset
  | ack (v : Word) (clears : v.getLsbD 1 = true) (low : level = false) :
      IrqEvent done level (.access (.write 8 (BitVec.ofNat 18 Csr.status.offset) v))
  | issue (v : Word) (low : level = false) :
      IrqEvent done level (.access (.write 8 (BitVec.ofNat 18 Csr.cmd.offset) v))
  | enable (v : Word) (ie : level = (done && v.getLsbD 16)) :
      IrqEvent done level (.access (.write 8 (BitVec.ofNat 18 Csr.ctrl.offset) v))

/-- IE is a stored bit of CTRL (10_state.md R32). -/
theorem ctrlMask_keeps_ie (v : Word) : (v &&& ctrlMask).getLsbD 16 = v.getLsbD 16 := by
  rw [BitVec.getLsbD_and, show ctrlMask.getLsbD 16 = true by decide, Bool.and_true]

/-- A register write keeps the level, or is one of those to STATUS, CMD and CTRL. -/
theorem irq_writeCsr (s : State) (r : Csr) (v : Word) :
    (s.writeCsr r v).irq = s.irq ∨
      IrqEvent s.done (s.writeCsr r v).irq (.access (.write 8 (BitVec.ofNat 18 r.offset) v)) := by
  cases r with
  | cmd => exact .inr (.issue v rfl)
  | ctrl => exact .inr (.enable v (congrArg (s.done && ·) (ctrlMask_keeps_ie v)))
  | status =>
    have hlevel : (s.writeCsr .status v).irq = (s.done && !v.getLsbD 1 && s.intEnable) := rfl
    rw [hlevel]
    cases hv : v.getLsbD 1 with
    | true => exact .inr (.ack v hv (by simp))
    | false => exact .inl (by simp [State.irq])
  | _ => exact .inl rfl

theorem irq_access (s : State) (a : Access) :
    (s.access a).irq = s.irq ∨ IrqEvent s.done (s.access a).irq (.access a) := by
  show (hostAccess a s).1.irq = s.irq ∨ IrqEvent s.done (hostAccess a s).1.irq (.access a)
  rcases Laws.hostAccess_cases a s with e | ⟨w, o, r, -, -, e⟩ | ⟨w, o, b, k, -, -, e⟩ | ⟨w, o, v, r, rfl, ht, -, e⟩ |
    ⟨w, o, v, b, k, -, -, -, e⟩ <;> rw [e]
  · exact .inl rfl
  · exact .inl rfl
  · exact .inl (by rw [countDraw_eq]; rfl)
  · obtain ⟨rfl, rfl⟩ := eq_of_target_csr ht
    exact irq_writeCsr s r v
  · exact .inl (by rw [writeBytes_eq]; rfl)

/-- One step of a good state keeps the level, or is taken with BUSY = 1, where DONE is 0, or the event of the step is one of
`IrqEvent`. -/
theorem step_irq {s t : State} (hwf : s.wf = true) (hstep : step s = .next t) :
    t.irq = s.irq ∨ s.busy = true ∨ ∃ e rest, s.agenda = e :: rest ∧ IrqEvent s.done t.irq e := by
  have hidle {u : State} (hu : ControlOk u) (hlevel : u.irq = s.irq) (hb : u.busy = false) (hrun : runCommand u = .next t) :
      t.irq = s.irq := by
    cases (runCommand_of_not_busy hu hb).symm.trans hrun
    exact hlevel
  cases hb : s.busy with
  | true => exact .inr (.inl rfl)
  | false =>
    rcases Laws.step_cases s with ⟨-, e⟩ | ⟨rest, -, e⟩ | ⟨rest, -, e⟩ | ⟨rest, a, hagenda, e⟩ |
      ⟨rest, hagenda, e⟩ <;> rw [e] at hstep
    · exact .inl (hidle (controlOk_of_wf hwf) rfl hb hstep)
    · exact .inl (hidle (u := { s with agenda := rest }) (controlOk_of_wf hwf) rfl hb hstep)
    · rw [coreStep_of_not_busy (s := { s with agenda := rest }) (controlOk_of_wf hwf) hb] at hstep
      cases hstep
      exact .inl rfl
    · cases hstep
      exact (irq_access { s with agenda := rest } a).imp_right fun h => .inr ⟨_, rest, hagenda, h⟩
    · cases hstep
      exact .inr (.inr ⟨_, rest, hagenda, .reset rfl⟩)

/-- Settles O53: a change of the level is one of the events, or a rise with BUSY = 1, which ends BUSY since the next state is good
again and has DONE = 1. -/
theorem interruptLevel : Obligations.InterruptLevel := by
  refine ⟨fun _ => rfl, fun s t hwf hstep hhigh hlow => ?falls, fun s t hwf hstep hlow hhigh => ?rises⟩
  case falls =>
    have hdone : s.done = true := (Bool.and_eq_true_iff.1 hhigh).1
    rcases step_irq hwf hstep with hkept | hb | ⟨e, rest, hagenda, hevent⟩
    · rw [hkept, hhigh] at hlow
      cases hlow
    · exact absurd ⟨hb, hdone⟩ (not_busy_and_done hwf)
    · refine ⟨e, rest, hagenda, ?_⟩
      cases hevent with
      | reset => exact .inl rfl
      | ack v clears => exact .inr (.inl ⟨v, rfl, clears⟩)
      | issue v => exact .inr (.inr (.inl ⟨v, rfl⟩))
      | enable v ie => exact .inr (.inr (.inr ⟨v, rfl, by rw [← hlow, ie, hdone, Bool.true_and]⟩))
  case rises =>
    have hdone : t.done = true := (Bool.and_eq_true_iff.1 hhigh).1
    rcases step_irq hwf hstep with hkept | hb | ⟨e, rest, hagenda, hevent⟩
    · rw [hkept, hlow] at hhigh
      cases hhigh
    · have hnot := not_busy_and_done (step_keeps_wf hstep hwf)
      exact .inl ⟨hb, Bool.eq_false_iff.2 fun h => hnot ⟨h, hdone⟩, hdone⟩
    · rw [hhigh] at hevent
      cases hevent with
      | enable v ie => exact .inr ⟨v, rest, hagenda, (Bool.and_eq_true_iff.1 ie.symm).2⟩
      | reset low | ack _ _ low | issue _ low => cases low

end Sys2Proof.Proofs
end

section
/-!
PROOFS. The fields of the model that CORE does not see, the events to come, the replies and the count of free reads (logs 1 and
9): no core step depends on them.
-/
namespace Sys2Proof.Proofs

open Sys2Proof Sys2Proof.Machine

/-! ### States that CORE does not tell apart -/

/-- `s` with other events to come, other replies and another count of free reads (logs 1 and 9). -/
def withOutside (events : List Event) (replies : List Reply) (draws : Nat) (s : State) : State :=
  { s with agenda := events, replies := replies, draws := draws }

/-- `t` is `s` but for the fields that CORE does not see. -/
def SameCore (s t : State) : Prop := t = withOutside t.agenda t.replies t.draws s

theorem sameCore_withOutside (e : List Event) (r : List Reply) (d : Nat) (s : State) : SameCore s (withOutside e r d s) := rfl

theorem sameCore_agenda (s : State) (l : List Event) : SameCore s { s with agenda := l } := rfl

theorem SameCore.cmd_eq {s t : State} (h : SameCore s t) : t.cmd = s.cmd := by rw [h]; rfl

theorem SameCore.stepBound_eq {s t : State} (h : SameCore s t) : t.stepBound = s.stepBound := by rw [h]; rfl

theorem SameCore.trans {s t u : State} (h : SameCore s t) (h' : SameCore t u) : SameCore s u := by
  unfold SameCore at *
  rw [h', h]
  rfl

/-- A function of the state that does not see those fields. -/
def Blind {α : Type} (f : State → α) : Prop := ∀ e r d s, f (withOutside e r d s) = f s

/-- What a command executes does not see them. -/
inductive BlindWork : Work → Prop
  | nothing : BlindWork .nothing
  | component {compute : State → Except OutOfBounds Pending} (blind : Blind compute) : BlindWork (.component compute)
  | image {z : Bool} {f : Pass} {g : Option Pass} (first : Blind f) (second : ∀ p ∈ g, Blind p) : BlindWork (.image z f g)

/-- Neither the checks of a command nor its work see them. -/
structure BlindPlan (k : Plan) : Prop where
  operandBad : Blind k.operandBad
  work : BlindWork k.work

theorem sampleWork_blind (m : Mode) : Blind (sampleWork m) := fun _ _ _ _ => rfl

theorem describe_withOutside (v : Variant) (m : Mode) (e : List Event) (r : List Reply) (d : Nat) (s : State) (row col : Nat) :
    describe v m (withOutside e r d s) row col = describe v m s row col := by
  apply describe_congr <;> rfl

theorem describePass_blind (v : Variant) (m : Mode) : Blind (describePass v m) := fun e r d s =>
  funext fun row => funext fun col => describePass_congr (describe_withOutside v m e r d s row col)

theorem rotatePass_blind : Blind rotatePass := fun _ _ _ _ => rfl

theorem pixelWork_blind (v : Variant) (m : Mode) : Blind (pixelWork v m) := by
  intro e r d s
  rw [pixelWork, describe_withOutside, pixelWork]
  rfl

theorem encodeWork_blind (k : Rule) (o : Order) : Blind (encodeWork k o) := fun _ _ _ _ => rfl

theorem planOf_blindWork (i : Instr) : BlindWork (planOf i).work := by
  cases i
  case nop => exact .nothing
  case lbpN | lbpB | ulbp | albpN | albpB => exact .image (describePass_blind _ _) nofun
  case rilbp => exact .image (describePass_blind _ _) fun p hp => Option.mem_some.1 hp ▸ rotatePass_blind
  case ripass => exact .image rotatePass_blind nofun
  case sampleN | sampleB | sampleT => exact .component (sampleWork_blind _)
  case encodeTM | encodeBM | encodeTL | encodeBL => exact .component (encodeWork_blind _ _)
  case bandcmp | rimin | uclass => exact .component fun _ _ _ _ => rfl
  case pixelLbpN | pixelLbpB | pixelRilbp | pixelUlbp | pixelAlbpN | pixelAlbpB => exact .component (pixelWork_blind _ _)

theorem planOf_blind (i : Instr) : BlindPlan (planOf i) where
  operandBad := by cases i <;> exact fun _ _ _ _ => rfl
  work := planOf_blindWork i

theorem planOfWord_blind (w : Word) : BlindPlan (planOfWord w) := by
  unfold planOfWord
  split
  · exact planOf_blind _
  · exact ⟨fun _ _ _ _ => rfl, .nothing⟩

/-! ### Core steps do not see them -/

section
variable (e : List Event) (r : List Reply) (d : Nat) (s : State)

@[simp] theorem withOutside_flight : (withOutside e r d s).flight = s.flight := rfl

@[simp] theorem withOutside_inInterior (row col : Nat) : (withOutside e r d s).inInterior row col = s.inInterior row col := rfl

theorem checkCode_withOutside {k : Plan} (hk : BlindPlan k) : checkCode k (withOutside e r d s) = checkCode k s := by
  simp only [checkCode, hk.operandBad e r d s]
  rfl

theorem startWork_withOutside (w : Work) : (withOutside e r d s).startWork w = withOutside e r d (s.startWork w) := by
  cases w <;> rfl

theorem fillStep_withOutside (w : Work) : fillStep w (withOutside e r d s) = withOutside e r d (fillStep w s) := by
  cases w with
  | nothing | component => rfl
  | image z f g => cases z <;> rfl

theorem pixelStep_withOutside {f : Pass} (hf : Blind f) :
    pixelStep f (withOutside e r d s) = withOutside e r d (pixelStep f s) := by
  simp only [pixelStep, hf e r d s, withOutside_flight]
  cases f s s.flight.row s.flight.col <;> rfl

theorem firstPassStep_withOutside {w : Work} (hw : BlindWork w) :
    firstPassStep w (withOutside e r d s) = withOutside e r d (firstPassStep w s) := by
  cases hw with
  | nothing => rfl
  | @component compute blind =>
    simp only [firstPassStep, blind e r d s]
    cases compute s <;> rfl
  | @image z f g first second =>
    simp only [firstPassStep, pixelStep_withOutside e r d s first, withOutside_flight, withOutside_inInterior]
    split
    · rfl
    · cases g <;> rfl

theorem secondPassStep_withOutside {w : Work} (hw : BlindWork w) :
    secondPassStep w (withOutside e r d s) = withOutside e r d (secondPassStep w s) := by
  cases hw with
  | nothing | component => rfl
  | @image z f g first second =>
    cases g with
    | none => rfl
    | some g =>
      simp only [secondPassStep, pixelStep_withOutside e r d s (second g rfl), withOutside_flight, withOutside_inInterior]
      split <;> rfl

/-- A core step does the same whatever is to come and whatever was answered. -/
theorem coreStep_withOutside {k : Plan} (hk : BlindPlan k) :
    coreStep k (withOutside e r d s) = withOutside e r d (coreStep k s) := by
  unfold coreStep
  rw [withOutside_flight]
  cases s.flight.phase with
  | idle | complete => rfl
  | check =>
    simp only [checkCode_withOutside e r d s hk, startWork_withOutside]
    cases checkCode k s <;> rfl
  | fill => exact fillStep_withOutside e r d s k.work
  | pass1 => exact firstPassStep_withOutside e r d s hk.work
  | pass2 => exact secondPassStep_withOutside e r d s hk.work

end

theorem SameCore.iterate {k : Plan} (hk : BlindPlan k) {s t : State} (h : SameCore s t) (n : Nat) :
    SameCore ((coreStep k)^[n] s) ((coreStep k)^[n] t) := by
  have hcommutes : Function.Semiconj (withOutside t.agenda t.replies t.draws) (coreStep k) (coreStep k) :=
    fun u => (coreStep_withOutside _ _ _ u hk).symm
  rw [h, ← (hcommutes.iterate_right n).eq s]
  exact sameCore_withOutside _ _ _ _

end Sys2Proof.Proofs
end

section
/-!
PROOFS. Finite completion (70_reset_and_hazards.md R385): every core step brings a command nearer to its completion, from wherever
it is in its scan: O7.
-/
namespace Sys2Proof.Proofs

open Sys2Proof Sys2Proof.Machine

/-! ### Runs of core steps -/

/-- The pipeline takes no event itself (20_memory.md R90). -/
theorem PipelineFrame.agenda_eq {s t : State} (h : PipelineFrame s t) : t.agenda = s.agenda := by
  obtain ⟨ht, -⟩ := h
  rw [ht]

theorem PipelineFrame.stepBound_eq {s t : State} (h : PipelineFrame s t) : t.stepBound = s.stepBound := by
  obtain ⟨ht, -⟩ := h
  rw [ht]
  rfl

/-- A step that takes a core step. -/
theorem step_core {s : State} {rest : List Event} (hagenda : s.agenda = .core :: rest) :
    ∃ t, step s = .next t ∧ t.agenda = rest ∧ SameCore (coreStep (planOfWord s.cmd) s) t :=
  ⟨_, by simp only [step, hagenda], (coreStep_move { s with agenda := rest }).frame.agenda_eq,
    (sameCore_agenda s rest).iterate (planOfWord_blind s.cmd) 1⟩

theorem run_succ {s t : State} (h : step s = .next t) (n : Nat) :
    Host.Core.run Sys2Proof.core (n + 1) s = Host.Core.run Sys2Proof.core n t := by
  have hcore : Sys2Proof.core.step s = .next t := h
  simp only [Host.Core.run, hcore]

theorem run_core_steps {n : Nat} {s : State} (hagenda : s.agenda = List.replicate n .core) :
    ∃ t, Host.Core.run Sys2Proof.core n s = .next t ∧ t.agenda = [] ∧
      SameCore ((coreStep (planOfWord s.cmd))^[n] s) t := by
  induction n generalizing s with
  | zero => exact ⟨s, rfl, hagenda, rfl⟩
  | succ n ih =>
    obtain ⟨u, hstep, hrest, hu⟩ := step_core hagenda
    have hcmd : u.cmd = s.cmd := hu.cmd_eq.trans (coreStep_move s).cmd_eq
    obtain ⟨t, hrun, hdone, ht⟩ := ih hrest
    rw [hcmd] at ht
    exact ⟨t, (run_succ hstep n).trans hrun, hdone, (hu.iterate (planOfWord_blind s.cmd) n).trans ht⟩

/-! ### Completion -/

/-- The pixels of a pass from the cursor on. -/
def pixelsLeft (s : State) : Nat := s.interiorCount - s.placeIndex s.flight.row s.flight.col

/-- A number of core steps after which the command has completed: the pixels of the passes still to come, one step for the end of
each pass, and one for each other stage (43_pipeline.md R230). `closer_or_completed` ties it to the model. -/
def stepsLeft (s : State) : Nat :=
  match s.flight.phase with
  | .idle => 0
  | .check => 2 * s.interiorCount + 5
  | .fill => pixelsLeft s + s.interiorCount + 4
  | .pass1 => pixelsLeft s + s.interiorCount + 3
  | .pass2 => pixelsLeft s + 2
  | .complete => 1

theorem stepsLeft_le_stepBound (s : State) : stepsLeft s ≤ s.stepBound := by
  have hbound := interiorCount_stepBound s
  have hleft : pixelsLeft s ≤ s.interiorCount := Nat.sub_le _ _
  unfold stepsLeft
  split <;> omega

/-- The command of `t` is still in flight, and nearer to its completion than that of `s`. -/
def Closer (s t : State) : Prop := t.flight.phase ≠ .idle ∧ stepsLeft t < stepsLeft s

theorem closer_of_complete {s t : State} (after : t.flight.phase = .complete) (before : 1 < stepsLeft s) : Closer s t :=
  ⟨by simp [after], by simpa [stepsLeft, after] using before⟩

/-- An interior pixel at the cursor is one of those left; the next place leaves one less. -/
theorem pixelsLeft_pixel {s : State} (interior : s.inInterior s.flight.row s.flight.col = true) (v : Byte) :
    pixelsLeft (s.setDescAt s.flight.row s.flight.col v).advance + 1 = pixelsLeft s := by
  have hnext := placeIndex_nextPlace interior
  have hlt := placeIndex_lt interior
  show s.interiorCount - s.placeIndex (s.nextPlace s.flight.row s.flight.col).1 (s.nextPlace s.flight.row s.flight.col).2 + 1 =
    s.interiorCount - s.placeIndex s.flight.row s.flight.col
  omega

theorem pixelStep_closer {s : State} (phase : s.flight.phase = .pass1 ∨ s.flight.phase = .pass2)
    (interior : s.inInterior s.flight.row s.flight.col = true) (f : Pass) : Closer s (pixelStep f s) := by
  rcases Laws.pixelStep_cases f s with ⟨v, -, h⟩ | ⟨o, -, h⟩ <;> rw [h]
  · have hleft := pixelsLeft_pixel interior v
    have hphase : (s.setDescAt s.flight.row s.flight.col v).advance.flight.phase = s.flight.phase := rfl
    have hcount : (s.setDescAt s.flight.row s.flight.col v).advance.interiorCount = s.interiorCount := rfl
    refine ⟨by rw [hphase]; rcases phase with h | h <;> simp [h], ?_⟩
    unfold stepsLeft
    rw [hphase, hcount]
    rcases phase with h | h <;> simp only [h] <;> omega
  · exact closer_of_complete rfl (by rcases phase with h | h <;> simp [stepsLeft, h])

/-- After its checks a command has at most the pixels of its two passes to do, and four steps more. -/
theorem closer_of_started {s t : State} (phase : s.flight.phase = .check) (hcount : t.interiorCount = s.interiorCount)
    (started : t.flight.phase = .fill ∨ t.flight.phase = .pass1) : Closer s t := by
  have hleft : pixelsLeft t ≤ t.interiorCount := Nat.sub_le _ _
  have hcheck : stepsLeft s = 2 * s.interiorCount + 5 := by simp only [stepsLeft, phase]
  rcases started with started | started
  · have hfill : stepsLeft t = pixelsLeft t + t.interiorCount + 4 := by simp only [stepsLeft, started]
    exact ⟨by simp [started], by omega⟩
  · have hpass : stepsLeft t = pixelsLeft t + t.interiorCount + 3 := by simp only [stepsLeft, started]
    exact ⟨by simp [started], by omega⟩

theorem startWork_closer {s : State} (phase : s.flight.phase = .check) (w : Work) : Closer s (s.startWork w) := by
  cases w with
  | nothing => exact closer_of_complete rfl (by simp [stepsLeft, phase])
  | component f => exact closer_of_started phase rfl (.inr rfl)
  | image z f g => exact closer_of_started phase rfl (by cases z <;> simp [State.startWork])

theorem fillStep_closer {s : State} (phase : s.flight.phase = .fill) (w : Work) : Closer s (fillStep w s) := by
  have hfill : stepsLeft s = pixelsLeft s + s.interiorCount + 4 := by simp only [stepsLeft, phase]
  have hfinish : Closer s (s.finish {}) := closer_of_complete rfl (by omega)
  cases w with
  | nothing | component => exact hfinish
  | image z f g =>
    cases z with
    | false => exact hfinish
    | true =>
      refine ⟨nofun, ?_⟩
      show pixelsLeft s + s.interiorCount + 3 < _
      omega

theorem firstPassStep_closer {s : State} (phase : s.flight.phase = .pass1) (w : Work) : Closer s (firstPassStep w s) := by
  have hpass : stepsLeft s = pixelsLeft s + s.interiorCount + 3 := by simp only [stepsLeft, phase]
  have hfinish (p : Pending) : Closer s (s.finish p) := closer_of_complete rfl (by omega)
  cases w with
  | nothing => exact hfinish {}
  | component compute =>
    simp only [firstPassStep]
    cases compute s with
    | ok p => exact hfinish p
    | error o => exact closer_of_complete rfl (by omega)
  | image z f g =>
    simp only [firstPassStep]
    split
    · next interior => exact pixelStep_closer (.inl phase) interior f
    · cases g with
      | none => exact hfinish {}
      | some g =>
        refine ⟨nofun, ?_⟩
        show s.interiorCount - _ + 2 < _
        omega

theorem secondPassStep_closer {s : State} (phase : s.flight.phase = .pass2) (w : Work) : Closer s (secondPassStep w s) := by
  have hpass : stepsLeft s = pixelsLeft s + 2 := by simp only [stepsLeft, phase]
  have hfinish : Closer s (s.finish {}) := closer_of_complete rfl (by omega)
  cases w with
  | nothing | component => exact hfinish
  | image z f g =>
    cases g with
    | none => exact hfinish
    | some g =>
      simp only [secondPassStep]
      split
      · next interior => exact pixelStep_closer (.inr phase) interior g
      · exact hfinish

/-- BUSY = 0, DONE = 1 and nothing in flight. -/
def Completed (t : State) : Prop := t.busy = false ∧ t.done = true ∧ t.flight = {}

theorem Completed.idle {t : State} (h : Completed t) : t.flight.phase = .idle := by
  obtain ⟨-, -, hflight⟩ := h
  rw [hflight]

/-- A core step of a command in flight completes it or brings it nearer to its completion. -/
theorem closer_or_completed (k : Plan) {s : State} (inFlight : s.flight.phase ≠ .idle) :
    Closer s (coreStep k s) ∨ Completed (coreStep k s) := by
  rcases Laws.coreStep_cases k s with ⟨phase, -⟩ | ⟨phase, e, -, h⟩ | ⟨phase, -, h⟩ | ⟨phase, h⟩ | ⟨phase, h⟩ |
    ⟨phase, h⟩ | ⟨-, h⟩
  · exact absurd phase inFlight
  · exact .inl (h ▸ closer_of_complete rfl (by simp [stepsLeft, phase]))
  · exact .inl (h ▸ startWork_closer phase k.work)
  · exact .inl (h ▸ fillStep_closer phase k.work)
  · exact .inl (h ▸ firstPassStep_closer phase k.work)
  · exact .inl (h ▸ secondPassStep_closer phase k.work)
  · exact .inr (h ▸ ⟨rfl, rfl, rfl⟩)

theorem iterate_coreStep_of_idle (k : Plan) (n : Nat) {s : State} (idle : s.flight.phase = .idle) :
    (coreStep k)^[n] s = s := by
  rw [← runSteps_eq_iterate, Laws.runSteps_idle _ _ _ idle]

/-- After as many core steps as are left the command has completed, and it stays so. -/
theorem completed_iterate (k : Plan) {n : Nat} {s : State} (inFlight : s.flight.phase ≠ .idle) (hn : stepsLeft s ≤ n) :
    Completed ((coreStep k)^[n] s) := by
  induction n generalizing s with
  | zero =>
    refine absurd ?_ inFlight
    unfold stepsLeft at hn
    split at hn
    · assumption
    all_goals omega
  | succ n ih =>
    rw [Function.iterate_succ_apply]
    rcases closer_or_completed k inFlight with ⟨inFlight', hlt⟩ | hdone
    · exact ih inFlight' (by omega)
    · rwa [iterate_coreStep_of_idle k n hdone.idle]

/-- Settles O7: every core step brings the command nearer to its completion, and a run takes more steps than are left. -/
theorem everyCommandCompletes : Obligations.EveryCommandCompletes := by
  refine ⟨fun s inFlight => ?steps, fun i s inFlight => ?run⟩
  case steps =>
    obtain ⟨t, hrun, hagenda, ht⟩ := run_core_steps (s := { s with agenda := List.replicate (stepsLeft s) .core }) rfl
    obtain ⟨hbusy, hdone, hflight⟩ := completed_iterate (planOfWord s.cmd)
      (s := { s with agenda := List.replicate (stepsLeft s) .core }) inFlight le_rfl
    exact ⟨stepsLeft s, t, hrun, (congrArg State.busy ht).trans hbusy, (congrArg State.done ht).trans hdone,
      (congrArg State.flight ht).trans hflight, hagenda⟩
  case run =>
    rw [Laws.exec_eq_runPlan, runPlan, runSteps_eq_iterate]
    exact ⟨_, rfl, completed_iterate (planOf i) inFlight (stepsLeft_le_stepBound s)⟩

end Sys2Proof.Proofs
end

section
/-!
PROOFS. Hazards (70_reset_and_hazards.md R386): the core steps and host reads before a completion do not change the final state:
O8.
-/
namespace Sys2Proof.Proofs

open Sys2Proof Sys2Proof.Machine

/-! ### The final state -/

/-- Where a run of the command in flight ends. -/
def finalState (s : State) : State := (coreStep (planOfWord s.cmd))^[s.stepBound] s

theorem runCommand_eq_finalState (s : State) : runCommand s = .next (finalState s) := by
  rw [Laws.runCommand_eq_runPlan, runPlan, runSteps_eq_iterate, finalState]

theorem finalState_agenda (s : State) : (finalState s).agenda = s.agenda :=
  (runCommand_frame (runCommand_eq_finalState s)).agenda_eq

theorem finalState_idle (s : State) : (finalState s).flight.phase = .idle := by
  unfold finalState
  by_cases idle : s.flight.phase = .idle
  · rw [iterate_coreStep_of_idle _ _ idle, idle]
  · exact (completed_iterate (planOfWord s.cmd) idle (stepsLeft_le_stepBound s)).idle

theorem SameCore.finalState {s t : State} (h : SameCore s t) : SameCore (finalState s) (finalState t) := by
  rw [Proofs.finalState, Proofs.finalState, h.cmd_eq, h.stepBound_eq]
  exact h.iterate (planOfWord_blind s.cmd) _

/-- A core step taken before the run is one step less of it: the run had one to spare. -/
theorem finalState_coreStep (s : State) : finalState (coreStep (planOfWord s.cmd) s) = finalState s := by
  have hmove := coreStep_move s
  rw [finalState, hmove.cmd_eq, hmove.frame.stepBound_eq, ← Function.iterate_succ_apply, Function.iterate_succ_apply']
  exact iterate_coreStep_of_idle _ 1 (finalState_idle s)

/-! ### Events before the run -/

theorem sameCore_read (width : Nat) (offset : Offset) (s : State) : SameCore s (s.access (.read width offset)) := by
  rw [access_eq]
  rcases Laws.hostAccess_cases (.read width offset) s with e | ⟨w, o, r, -, -, e⟩ | ⟨w, o, b, k, -, -, e⟩ |
    ⟨w, o, v, r, hwrite, -⟩ | ⟨w, o, v, b, k, hwrite, -⟩
  · rw [e]; rfl
  · rw [e]; rfl
  · rw [e, countDraw_eq]; rfl
  · cases hwrite
  · cases hwrite

/-- A step that makes a host read changes nothing that CORE sees. -/
theorem step_read {s : State} {rest : List Event} {width : Nat} {offset : Offset}
    (hagenda : s.agenda = .access (.read width offset) :: rest) :
    ∃ t, step s = .next t ∧ t.agenda = rest ∧ SameCore s t := by
  refine ⟨_, by simp only [step, hagenda], ?_,
    (sameCore_agenda s rest).trans (sameCore_read width offset { s with agenda := rest })⟩
  exact congrArg Prod.fst (outside_hostAccess (.read width offset) { s with agenda := rest })

/-- A core step or a host read leaves the final state as it was. -/
theorem step_keeps_finalState {s : State} {e : Event} {rest : List Event} (hagenda : s.agenda = e :: rest)
    (he : e = .core ∨ ∃ width offset, e = .access (.read width offset)) :
    ∃ t, step s = .next t ∧ t.agenda = rest ∧ SameCore (finalState s) (finalState t) := by
  rcases he with rfl | ⟨width, offset, rfl⟩
  · obtain ⟨t, hstep, hrest, ht⟩ := step_core hagenda
    exact ⟨t, hstep, hrest, finalState_coreStep s ▸ ht.finalState⟩
  · obtain ⟨t, hstep, hrest, ht⟩ := step_read hagenda
    exact ⟨t, hstep, hrest, ht.finalState⟩

theorem step_run {s : State} {rest : List Event} (hagenda : s.agenda = .run :: rest) :
    step s = .next (finalState { s with agenda := rest }) := by
  rw [← runCommand_eq_finalState]
  simp only [step, hagenda]

theorem run_interleaved {l : List Event} (hl : ∀ e ∈ l, e = .core ∨ ∃ width offset, e = .access (.read width offset))
    {s : State} (hagenda : s.agenda = l ++ [.run]) :
    ∃ t, Host.Core.run Sys2Proof.core (l.length + 1) s = .next t ∧ t.agenda = [] ∧ SameCore (finalState s) t := by
  induction l generalizing s with
  | nil =>
    exact ⟨_, run_succ (step_run hagenda) 0, finalState_agenda _, (sameCore_agenda s []).finalState⟩
  | cons e l ih =>
    obtain ⟨he, hl⟩ := List.forall_mem_cons.1 hl
    obtain ⟨u, hstep, hrest, hu⟩ := step_keeps_finalState hagenda he
    obtain ⟨t, hrun, hdone, ht⟩ := ih hl hrest
    exact ⟨t, (run_succ hstep _).trans hrun, hdone, hu.trans ht⟩

/-- Settles O8: each event before the run keeps the final state, and the run itself reaches it. -/
theorem interleavingDoesNotMatter : Obligations.InterleavingDoesNotMatter := by
  intro s u l hl hu
  obtain ⟨t, hrun, hagenda, ht⟩ := run_interleaved hl (s := { s with agenda := l ++ [.run] }) rfl
  obtain rfl : finalState { s with agenda := [] } = u :=
    Host.Outcome.next.inj ((step_run (s := { s with agenda := [.run] }) rfl).symm.trans hu)
  have hbefore : SameCore { s with agenda := [] } { s with agenda := l ++ [.run] } :=
    sameCore_agenda { s with agenda := [] } (l ++ [.run])
  have hafter : t = withOutside t.agenda t.replies t.draws _ := hbefore.finalState.trans ht
  have hnone : t.agenda = (finalState { s with agenda := [] }).agenda :=
    hagenda.trans (finalState_agenda { s with agenda := [] }).symm
  rw [hnone] at hafter
  exact ⟨t, hrun, hafter⟩

end Sys2Proof.Proofs
end
